-- ==== Sys2Proof/Word.lean ====
section
/-! DEFINITION. The two machine words of the core: a byte and a 16-bit address (`00_scope.md` R7). -/

namespace Sys2Proof

/-- An unsigned 8-bit value (`u8`): registers, memory bytes, operand bytes. Arithmetic wraps modulo 256 (R7, R9). -/
abbrev Byte := BitVec 8

/-- An unsigned 16-bit value (`u16`): the program counter and every address. Arithmetic wraps modulo 65536 (R7, R9). -/
abbrev Addr := BitVec 16

end Sys2Proof
end

