-- ==== Sys2Proof/Machine/Bits.lean ====
section
/-! DEFINITION. Bit fields, extension and byte order (`00_scope.md` R9, R10; `20_memory.md` R47). -/

namespace Sys2Proof.Machine

/-- `w[15:8]`, the high byte of a 16-bit word (R9). -/
def hiByte (w : Addr) : Byte := w.extractLsb' 8 8

/-- `w[7:0]`, the low byte of a 16-bit word (R9). -/
def loByte (w : Addr) : Byte := w.extractLsb' 0 8

/-- `hi : lo`, with `hi` in the high part (R9). -/
def wordOf (hi lo : Byte) : Addr := hi ++ lo

/-- `zext_16(b)` (R10). -/
def zext16 (b : Byte) : Addr := b.setWidth 16

/-- `sext_16(b)` (R10). -/
def sext16 (b : Byte) : Addr := b.signExtend 16

/-- The byte that is 1 or 0, as the carry enters a sum or a rotation (R127, R143, R144). -/
def bitByte (b : Bool) : Byte := if b then 1#8 else 0#8

end Sys2Proof.Machine
end

