-- ==== Sys2Proof/Machine/Flags.lean ====
section
/-! DEFINITION. The status bits, the shared Z/N policy and every flag and result computation of the ALU, the compares, the
increments and the shifts (`10_state.md` R16, `40_engine.md` R93, `43_alu.md`, `44_incdec_shift.md`). -/

namespace Sys2Proof.Machine

/-- The eight status bits (R16). -/
inductive Flag where
  | c
  | z
  | i
  | d
  | b
  /-- Bit 5, unused, always 1 (R17). -/
  | u
  | v
  | n
  deriving DecidableEq, Repr

/-- The bit number of a status bit (R16). -/
def Flag.bit : Flag → Nat
  | .c => 0
  | .z => 1
  | .i => 2
  | .d => 3
  | .b => 4
  | .u => 5
  | .v => 6
  | .n => 7

/-- The mask of a status bit (R16). -/
def Flag.mask : Flag → Byte
  | .c => 0x01#8
  | .z => 0x02#8
  | .i => 0x04#8
  | .d => 0x08#8
  | .b => 0x10#8
  | .u => 0x20#8
  | .v => 0x40#8
  | .n => 0x80#8

/-- Read a status bit. -/
def flagOf (p : Byte) (f : Flag) : Bool := p.getLsbD f.bit

/-- Write a status bit and no other. -/
def withFlag (p : Byte) (f : Flag) (b : Bool) : Byte := if b then p ||| f.mask else p &&& ~~~f.mask

/-- `SetZN(v)` on a status value: Z is `v == 0`, N is `v[7]`, no other bit changes (R93). -/
def withZN (p : Byte) (v : Byte) : Byte := withFlag (withFlag p .z (v == 0#8)) .n (v.getLsbD 7)

/-- The status byte PHP and BRK push: B and bit 5 set whatever the live value is (R120, R167). -/
def pushedStatus (p : Byte) : Byte := p ||| 0x30#8

/-- The status PLP and RTI take from a pulled byte: bit 5 set, B cleared (R122, R168). -/
def pulledStatus (v : Byte) : Byte := (v ||| 0x20#8) &&& ~~~(0x10#8)

/-- ADC's exact sum, 0 to 511 (R127, R132). -/
def adcSum (a v : Byte) (c : Bool) : Nat := a.toNat + v.toNat + c.toNat

/-- ADC's result, the sum modulo 256 (R127). -/
def adcResult (a v : Byte) (c : Bool) : Byte := BitVec.ofNat 8 (adcSum a v c)

/-- ADC's carry out, `sum > 255` (R127). -/
def adcCarry (a v : Byte) (c : Bool) : Bool := decide (255 < adcSum a v c)

/-- ADC's overflow, `(~(a ^ v) & (a ^ sum) & 0x80) != 0` (R127). -/
def adcOverflow (a v : Byte) (c : Bool) : Bool :=
  (~~~(a ^^^ v) &&& (a ^^^ adcResult a v c) &&& 0x80#8) != 0#8

/-- The status after ADC of `v` to `a`: C, V, then Z and N on the new accumulator (R127). -/
def adcStatus (p a v : Byte) : Byte :=
  withZN
    (withFlag (withFlag p .c (adcCarry a v (flagOf p .c))) .v (adcOverflow a v (flagOf p .c)))
    (adcResult a v (flagOf p .c))

/-- SBC's exact sum, ADC of the operand's one's complement `w` (R128). -/
def sbcSum (a v : Byte) (c : Bool) : Nat := a.toNat + (~~~v).toNat + c.toNat

/-- SBC's result, the sum modulo 256 (R128). -/
def sbcResult (a v : Byte) (c : Bool) : Byte := BitVec.ofNat 8 (sbcSum a v c)

/-- SBC's carry out, "no borrow" (R128). -/
def sbcCarry (a v : Byte) (c : Bool) : Bool := decide (255 < sbcSum a v c)

/-- SBC's overflow, `((a ^ v) & (a ^ sum) & 0x80) != 0` (R128). -/
def sbcOverflow (a v : Byte) (c : Bool) : Bool :=
  ((a ^^^ v) &&& (a ^^^ sbcResult a v c) &&& 0x80#8) != 0#8

/-- The status after SBC of `v` from `a` (R128). -/
def sbcStatus (p a v : Byte) : Byte :=
  withZN
    (withFlag (withFlag p .c (sbcCarry a v (flagOf p .c))) .v (sbcOverflow a v (flagOf p .c)))
    (sbcResult a v (flagOf p .c))

/-- The status after comparing a register `r` with `v`: C is `r >= v` unsigned, Z and N on `(r - v) mod 256` (R134). -/
def compareStatus (p r v : Byte) : Byte := withZN (withFlag p .c (decide (v ≤ r))) (r - v)

/-- The status after BIT: Z from `a & v`, N and V copied from bits 7 and 6 of `v` (R126). -/
def bitStatus (p a v : Byte) : Byte :=
  withFlag (withFlag (withFlag p .z ((a &&& v) == 0#8)) .n (v.getLsbD 7)) .v (v.getLsbD 6)

/-- A shift or rotation of one byte with the carry in: the new byte and the bit shifted off. -/
structure Shifted where
  result : Byte
  carry : Bool
  deriving DecidableEq, Repr

/-- ASL: `(v << 1) mod 256`, carry out `v[7]` (R141). The carry in is not used. -/
def shiftAsl (v : Byte) (_c : Bool) : Shifted := ⟨v <<< 1, v.getLsbD 7⟩

/-- LSR: `v >> 1`, carry out `v[0]` (R142). The carry in is not used. -/
def shiftLsr (v : Byte) (_c : Bool) : Shifted := ⟨v >>> 1, v.getLsbD 0⟩

/-- ROL: `((v << 1) | c) mod 256`, carry out `v[7]` (R143). -/
def shiftRol (v : Byte) (c : Bool) : Shifted := ⟨(v <<< 1) ||| bitByte c, v.getLsbD 7⟩

/-- ROR: `(c << 7) | (v >> 1)`, carry out `v[0]` (R144). -/
def shiftRor (v : Byte) (c : Bool) : Shifted := ⟨(bitByte c <<< 7) ||| (v >>> 1), v.getLsbD 0⟩

/-- The status after a shift: C is the bit shifted off, Z and N on the new byte (R141 to R144). -/
def shiftStatus (p : Byte) (r : Shifted) : Byte := withZN (withFlag p .c r.carry) r.result

/-- INC, INX and INY: plus 1 modulo 256 (R135, R137, R138). -/
def incByte (v : Byte) : Byte := v + 1#8

/-- DEC, DEX and DEY: minus 1 modulo 256 (R136, R139, R140). -/
def decByte (v : Byte) : Byte := v - 1#8

end Sys2Proof.Machine
end

