-- ==== Sys2Proof/Config.lean ====
section
/-! DEFINITION. The parameters of `00_scope.md` R8 that are fixed for the machine. `MAPPER`, `PRG_BANKS`, `PRG`, `RAM0`
and the bus come with the launch and are held in the state (log entry 5). `CYCLES` is `Sys2Proof.Machine.cycleTable`. `END`
is an argument of `Sys2Proof.runToEnd`. -/

namespace Sys2Proof.Config

/-- `BUS_SPLIT`: the first address the mapper answers (R8, R37). -/
def busSplit : Addr := 0x8000#16

/-- `RAM_SIZE`: the bytes of RAM behind 0x0000-0x7FFF, with no mirroring (R8, R40, decision D1). -/
def ramSize : Nat := 32768

/-- The bytes of the conformance bus `FlatBus` (R58, decision D14). -/
def flatSize : Nat := 65536

/-- The bytes of one PRG-ROM bank (R8, R43). -/
def prgBankSize : Nat := 16384

/-- The mapper id under which NROM is selected (R42, decision D13; PRESUMED, log entry 17). -/
def nromMapperId : Nat := 0

/-- What a byte of RAM or PRG that no entry lists reads as. The contents at launch are inputs (`RAM0`, `PRG`), and an image
lists every byte that differs from this one. DESIGN CHOICE, unsafe (log entry 4). -/
def unlistedByte : Byte := 0x00#8

/-- The two treatments of an unassigned opcode byte (R8, R95, decision D6). -/
inductive UnassignedPolicy where
  /-- The source's behaviour: a one-byte no-op that returns zero cycles. -/
  | nop
  /-- The model refuses the tick. -/
  | refuse
  deriving DecidableEq, Repr

/-- `UNASSIGNED_POLICY`, at its default (R8, R95; log entry 11). -/
def unassignedPolicy : UnassignedPolicy := .nop

end Sys2Proof.Config
end

