-- ==== Sys2Proof/Machine/Memory.lean ====
section
/-! DEFINITION. A memory as a list of (index, byte) cells in one canonical form: indexes strictly rising, no cell equal to
what an unlisted index reads as. The RAM and the PRG image of the bus are two such memories (`20_memory.md` R40, R43). -/

namespace Sys2Proof.Machine

/-- A sparse memory: the cells that differ from `Config.unlistedByte`, by rising index (log entry 4). -/
abbrev Memory := List Host.Cell

/-- The byte at an index. -/
def Memory.read : Memory → Nat → Byte
  | [], _ => Config.unlistedByte
  | c :: m, i => if c.1 = i then c.2 else Memory.read m i

/-- Put a cell before the first cell of a larger index. -/
def Memory.insertCell : Memory → Nat → Byte → Memory
  | [], i, v => [(i, v)]
  | c :: m, i, v => if i < c.1 then (i, v) :: c :: m else c :: Memory.insertCell m i v

/-- Write a byte: the old cells of the index go, and the new one is listed unless it holds the unlisted byte. -/
def Memory.write (m : Memory) (i : Nat) (v : Byte) : Memory :=
  let rest := m.filter (fun c => c.1 != i)
  if v = Config.unlistedByte then rest else Memory.insertCell rest i v

/-- The canonical form, for cells whose indexes are at least `low` and below `size`. -/
def Memory.wfFrom (size : Nat) : Nat → Memory → Bool
  | _, [] => true
  | low, c :: m =>
    decide (low ≤ c.1) && decide (c.1 < size) && decide (c.2 ≠ Config.unlistedByte) && Memory.wfFrom size (c.1 + 1) m

/-- A memory of `size` bytes is in canonical form: indexes strictly rising and below `size`, no unlisted byte listed. -/
def Memory.wf (m : Memory) (size : Nat) : Bool := Memory.wfFrom size 0 m

/-- The image whose byte `i` is the list's byte `i`, and which lists nothing after it. -/
def Memory.ofBytesFrom : Nat → List Byte → Memory
  | _, [] => []
  | i, b :: bs =>
    if b = Config.unlistedByte then Memory.ofBytesFrom (i + 1) bs else (i, b) :: Memory.ofBytesFrom (i + 1) bs

/-- A memory image from its bytes in index order: how a PRG-ROM or a `RAM0` is loaded (R43, R59). -/
def Memory.ofBytes (bs : List Byte) : Memory := Memory.ofBytesFrom 0 bs

end Sys2Proof.Machine
end

