-- ==== Sys2Proof/Machine/State.lean ====
section
/-! DEFINITION. The state of the core and of the bus behind it (`10_state.md`, `20_memory.md`), the reasons a tick may not
answer a next state, and the state right after reset. -/

namespace Sys2Proof.Machine

/-- The number of 16 KiB PRG banks an NROM cartridge may have (R44, decision D13). -/
inductive PrgBanks where
  | one
  | two
  deriving DecidableEq, Repr

/-- The finite set of supported mappers, selected once at load time (R41, R42). -/
inductive Mapper where
  /-- The reference mapper (R43 to R45). -/
  | nrom (banks : PrgBanks)
  deriving DecidableEq, Repr

/-- The bus the CPU is bound to (R8, R37, R58). -/
inductive BusInstance where
  /-- The platform bus: RAM below `BUS_SPLIT`, the mapper from it (R37 to R45). -/
  | mapped (mapper : Mapper)
  /-- The conformance bus `FlatBus`: 65536 RAM bytes, no mapper, no events (R58, decision D14). -/
  | flat
  deriving DecidableEq, Repr

/-- A diagnostic event (R29). -/
inductive Event where
  /-- A write of `value` to the mapper range, at the rebased `offset`; the write changed nothing (R45, decision D12). -/
  | illegalPrgWrite (offset : Addr) (value : Byte)
  deriving DecidableEq, Repr

/-- One bus access: the two transactions of R13, each of one byte (R38, R39, R49). -/
inductive Access where
  | read (address : Addr) (value : Byte)
  | write (address : Addr) (value : Byte)
  deriving DecidableEq, Repr

/-- Everything the spec gives the machine. -/
structure State where
  /-- The program counter, "points at the next byte to fetch" (R27). -/
  pc : Addr
  /-- The stack pointer: the low byte of the address of the next free stack slot (R26). -/
  sp : Byte
  /-- The accumulator (R15). -/
  a : Byte
  /-- Index register X (R25). -/
  x : Byte
  /-- Index register Y (R25). -/
  y : Byte
  /-- The processor status, bits `N V U B D I Z C` from bit 7 down (R16). -/
  status : Byte
  /-- The bus the CPU is bound to; constant for the life of a session (R42). -/
  bus : BusInstance
  /-- The RAM behind the bus, by address (R40). -/
  ram : Memory
  /-- The cartridge's PRG-ROM, by offset into the image; constant for the life of a session (R43, R60). -/
  prg : Memory
  /-- The diagnostic events emitted so far, oldest first: an output (R29, R45). -/
  events : List Event
  /-- The cycle count the last tick returned, if a tick has returned one: an output (R77, R96; log entry 14). -/
  cycles : Option Byte
  /-- The bus accesses of the last tick or reset, oldest first: the model's own output field (R94; log entry 12). -/
  accesses : List Access
  deriving DecidableEq, Repr

/-- The core has no fault outcome: "No tick fails" (R99), no access faults (R57), no exception is raised (R170). The type
therefore has no value, and no tick of this model can answer a fault; that is the spec's own statement (log entry 23). -/
inductive Fault where
  deriving DecidableEq, Repr

/-- The reasons the model answers no next state. -/
inductive Refusal where
  /-- An instruction whose arm has no meaning yet: raised by `exec`'s arm alone, none at present. Safe. -/
  | notModelled (mnemonic : String)
  /-- An unassigned opcode byte under `UNASSIGNED_POLICY = refuse` (R95, R185): raised by the meaning of the unassigned
  bytes, and never under the default policy. Safe: it errs toward unprovable (decision D6). -/
  | unassignedOpcode (op : Byte)
  deriving DecidableEq, Repr

/-- What a tick answers. -/
abbrev Result := Host.Outcome State Fault Refusal

/-- The snapshot of the six registers (R30): "equality is exact field comparison". -/
structure CPUState where
  pc : Addr
  sp : Byte
  a : Byte
  x : Byte
  y : Byte
  status : Byte
  deriving DecidableEq, Repr

/-- The bytes of RAM behind a bus (R40, R58). -/
def BusInstance.ramSize : BusInstance → Nat
  | .mapped _ => Config.ramSize
  | .flat => Config.flatSize

/-- The bytes of PRG-ROM behind a bus (R43, R44). -/
def BusInstance.prgSize : BusInstance → Nat
  | .mapped (.nrom .one) => Config.prgBankSize
  | .mapped (.nrom .two) => 2 * Config.prgBankSize
  | .flat => 0

/-- The machine right after `reset_to_power_up()` (R34, R186, R187), on the launch of log entry 5: the NROM bus with one PRG
bank, and a RAM and a PRG image that list nothing. The reset vector read from that image is 0x0000, so `pc` is 0x0000; the
two reads of R187 are the accesses made. `Sys2Proof.Tests.test_reset_is_reset_to_power_up` checks this record against the
operation. -/
def State.reset : State where
  pc := 0x0000#16
  sp := 0xFD#8
  a := 0x00#8
  x := 0x00#8
  y := 0x00#8
  status := 0x34#8
  bus := .mapped (.nrom .one)
  ram := []
  prg := []
  events := []
  cycles := none
  accesses := [.read 0xFFFC#16 0x00#8, .read 0xFFFD#16 0x00#8]

end Sys2Proof.Machine
end

