-- ==== Sys2Proof/Machine/Ops.lean ====
section
/-! DEFINITION. The named operations over memory and registers: the bus read and write, the NROM mapper, the fetch of one
byte, the stack, the registers, the end of a tick, the trap entry and the trap return, and reset. -/

namespace Sys2Proof.Machine

/-- The rebased address the mapper sees (R37). -/
def prgOffset (addr : Addr) : Addr := addr - Config.busSplit

/-- The index into the PRG image that an offset of the mapper range reads: with one bank the low 16 KiB is mirrored, with
two banks the offset is the index (R43, R44; conflict C1). -/
def Mapper.prgIndex : Mapper → Addr → Nat
  | .nrom .one, offset => (offset &&& 0x3FFF#16).toNat
  | .nrom .two, offset => offset.toNat

/-- `Mapper.prgRead` (R43). -/
def Mapper.prgRead (m : Mapper) (prg : Memory) (offset : Addr) : Byte := prg.read (m.prgIndex offset)

/-- The byte a bus read of an address returns (R38). Reads change nothing (R50). -/
def State.peek (s : State) (addr : Addr) : Byte :=
  match s.bus with
  | .flat => s.ram.read addr.toNat
  | .mapped m => if addr < Config.busSplit then s.ram.read addr.toNat else m.prgRead s.prg (prgOffset addr)

/-- Put an access on the record of the tick (R94; log entry 12). -/
def State.record (s : State) (x : Access) : State := { s with accesses := s.accesses ++ [x] }

/-- `MemRead(addr, 1)`, the only read the core performs (R38). -/
def State.memRead (s : State) (addr : Addr) : Byte × State := (s.peek addr, s.record (.read addr (s.peek addr)))

/-- What a write of a byte does to the RAM, the PRG image and the events: RAM takes it, and NROM discards it and emits one
event (R39, R40, R45, R58). -/
def State.store (s : State) (addr : Addr) (v : Byte) : State :=
  match s.bus with
  | .flat => { s with ram := s.ram.write addr.toNat v }
  | .mapped _ =>
    if addr < Config.busSplit then { s with ram := s.ram.write addr.toNat v }
    else { s with events := s.events ++ [.illegalPrgWrite (prgOffset addr) v] }

/-- `MemWrite(addr, 1, v)`, the only write the core performs (R39). -/
def State.memWrite (s : State) (addr : Addr) (v : Byte) : State := (s.store addr v).record (.write addr v)

/-- `Fetch8()`: read the byte at `pc`, then advance `pc` (R10, R76). -/
def State.fetch8 (s : State) : Byte × State :=
  let (v, s) := s.memRead s.pc
  (v, { s with pc := s.pc + 1#16 })

/-- `Fetch16()`: the low byte first (R10). -/
def State.fetch16 (s : State) : Addr × State :=
  let (lo, s) := s.fetch8
  let (hi, s) := s.fetch8
  (wordOf hi lo, s)

/-- `Read16(lo_addr, hi_addr)`: two byte reads, the low address first (R10). -/
def State.read16 (s : State) (loAddr hiAddr : Addr) : Addr × State :=
  let (lo, s) := s.memRead loAddr
  let (hi, s) := s.memRead hiAddr
  (wordOf hi lo, s)

/-- The stack slot of a stack pointer, `0x0100 | sp` (R26, R113). -/
def stackSlot (sp : Byte) : Addr := 0x0100#16 ||| zext16 sp

/-- `Push(v)`: write the slot, then decrement `sp` modulo 256 (R117; decision D2). -/
def State.push (s : State) (v : Byte) : State :=
  let s := s.memWrite (stackSlot s.sp) v
  { s with sp := s.sp - 1#8 }

/-- `Pull()`: increment `sp` modulo 256, then read the slot (R118; decision D2). -/
def State.pull (s : State) : Byte × State :=
  let s := { s with sp := s.sp + 1#8 }
  s.memRead (stackSlot s.sp)

/-- Push a 16-bit word, high byte first (R47, R148, R167). -/
def State.pushWord (s : State) (w : Addr) : State := (s.push (hiByte w)).push (loByte w)

/-- Pull a 16-bit word, low byte first (R47, R149, R168). -/
def State.pullWord (s : State) : Addr × State :=
  let (lo, s) := s.pull
  let (hi, s) := s.pull
  (wordOf hi lo, s)

/-- The three registers that instructions load, store, compare and step (R15, R25). -/
inductive Reg where
  | a
  | x
  | y
  deriving DecidableEq, Repr

/-- Read a register. -/
def State.getReg (s : State) : Reg → Byte
  | .a => s.a
  | .x => s.x
  | .y => s.y

/-- Write a register. -/
def State.setReg (s : State) (r : Reg) (v : Byte) : State :=
  match r with
  | .a => { s with a := v }
  | .x => { s with x := v }
  | .y => { s with y := v }

/-- Write the status register. -/
def State.setStatus (s : State) (p : Byte) : State := { s with status := p }

/-- `SetZN(v)` (R93). -/
def State.setZN (s : State) (v : Byte) : State := s.setStatus (withZN s.status v)

/-- Write one status bit and no other (R160 to R166). -/
def State.setFlag (s : State) (f : Flag) (b : Bool) : State := s.setStatus (withFlag s.status f b)

/-- Write a register and set Z and N on the value written (R101 to R111, R121). -/
def State.setRegZN (s : State) (r : Reg) (v : Byte) : State := (s.setReg r v).setZN v

/-- The program counter is overwritten (R27). -/
def State.jump (s : State) (t : Addr) : State := { s with pc := t }

/-- The tick returns a cycle count (R96). -/
def State.returning (s : State) (n : Byte) : State := { s with cycles := some n }

/-- The tick of an assigned opcode returns its base count (R96). -/
def State.retire (s : State) (op : Byte) : State := s.returning (baseCycles op)

/-- The tick of a taken branch returns its base count plus one (R96, R197). -/
def State.retireTaken (s : State) (op : Byte) : State := s.returning (baseCycles op + 1#8)

/-- A tick begins: the record of accesses is that of this tick (log entry 12). -/
def State.beginTick (s : State) : State := { s with accesses := [] }

/-- Trap entry, the one the core has (R167, R171, R172, R175): `pc` moves past the break byte without a read, `pc` high,
`pc` low and the status with B and bit 5 set are pushed, B becomes 0 and I becomes 1, and `pc` is loaded from
0xFFFE/0xFFFF. -/
def State.enterTrap (s : State) : State :=
  let s := s.jump (s.pc + 1#16)
  let s := s.pushWord s.pc
  let s := s.push (pushedStatus s.status)
  let s := s.setFlag .b false
  let s := s.setFlag .i true
  let (t, s) := s.read16 0xFFFE#16 0xFFFF#16
  s.jump t

/-- Trap return (R168, R176): the status from the stack with bit 5 set and B cleared, then `pc` from the stack. -/
def State.leaveTrap (s : State) : State :=
  let (v, s) := s.pull
  let s := s.setStatus (pulledStatus v)
  let (t, s) := s.pullWord
  s.jump t

/-- `reset_to_power_up()` (R186, R187): two reads, low byte first; no write, no event, no returned count. -/
def State.resetToPowerUp (s : State) : State :=
  let (t, s) := s.beginTick.read16 0xFFFC#16 0xFFFD#16
  { s with pc := t, a := 0x00#8, x := 0x00#8, y := 0x00#8, sp := 0xFD#8, status := 0x34#8, cycles := none }

end Sys2Proof.Machine
end

