-- ==== Sys2Proof/Machine/Operands.lean ====
section
/-! DEFINITION. The addressing modes (`40_engine.md` R78 to R92). `Resolve` distinguishes the modes that yield an address
from the modes that yield a value by type: `AddrForm` yields an address, `ValueForm` is what `Load` reads, `TargetForm` is
what a shift reads and writes. Operand bytes are already in the form: the tick has fetched them (log entry 22). -/

namespace Sys2Proof.Machine

/-- The modes that yield an effective address (R82 to R87, R89, R90). -/
inductive AddrForm where
  | zp (zz : Byte)
  | zpx (zz : Byte)
  | zpy (zz : Byte)
  | abs (hhll : Addr)
  | absx (hhll : Addr)
  | absy (hhll : Addr)
  | indx (zz : Byte)
  | indy (zz : Byte)
  deriving DecidableEq, Repr

/-- The operands of the instructions that take a value: Immediate (R81) or an address-yielding mode. -/
inductive ValueForm where
  | imm (nn : Byte)
  | mem (f : AddrForm)
  deriving DecidableEq, Repr

/-- The operands of the shifts: Accumulator (R80) or an address-yielding mode. -/
inductive TargetForm where
  | acc
  | mem (f : AddrForm)
  deriving DecidableEq, Repr

/-- The operands of JMP: Absolute (R85) or Indirect (R88). -/
inductive JumpForm where
  | abs (hhll : Addr)
  | ind (hhll : Addr)
  deriving DecidableEq, Repr

/-- Zero Page: `0x00 : zz` (R82). -/
def zpAddr (zz : Byte) : Addr := wordOf 0x00#8 zz

/-- Zero Page,X and Zero Page,Y: the sum wraps within page 0 (R83, R84). -/
def zpIndexed (zz i : Byte) : Addr := zpAddr (zz + i)

/-- Absolute,X and Absolute,Y: a 16-bit sum with natural wraparound (R86, R87). -/
def absIndexed (base : Addr) (i : Byte) : Addr := base + zext16 i

/-- The address of the high byte of an indirect jump's target: it wraps within the pointer's page (R88). -/
def indHighAddr (ptr : Addr) : Addr := wordOf (hiByte ptr) (loByte ptr + 1#8)

/-- Read a two-byte pointer in the zero page, low byte first; the second byte wraps within page 0 (R89, R90; decision D3). -/
def State.zpPointer (s : State) (p : Byte) : Addr × State := s.read16 (zpAddr p) (zpAddr (p + 1#8))

/-- `Resolve` for the modes that yield an address (R82 to R90). -/
def State.resolve (s : State) : AddrForm → Addr × State
  | .zp zz => (zpAddr zz, s)
  | .zpx zz => (zpIndexed zz s.x, s)
  | .zpy zz => (zpIndexed zz s.y, s)
  | .abs hhll => (hhll, s)
  | .absx hhll => (absIndexed hhll s.x, s)
  | .absy hhll => (absIndexed hhll s.y, s)
  | .indx zz => s.zpPointer (zz + s.x)
  | .indy zz =>
    let (base, s) := s.zpPointer zz
    (absIndexed base s.y, s)

/-- `Resolve` then `Load` for a value operand (R81, R92). -/
def State.load (s : State) : ValueForm → Byte × State
  | .imm nn => (nn, s)
  | .mem f =>
    let (ea, s) := s.resolve f
    s.memRead ea

/-- `Resolve` for JMP: the pointer's two bytes are read low byte first, and the high byte's address wraps within the
pointer's page (R85, R88). -/
def State.jumpTarget (s : State) : JumpForm → Addr × State
  | .abs hhll => (hhll, s)
  | .ind ptr => s.read16 ptr (indHighAddr ptr)

end Sys2Proof.Machine
end

