-- ==== Sys2Proof/Machine/Alu.lean ====
section
/-! DEFINITION. The logical, arithmetic and compare instructions (`43_alu.md`). ADC and SBC are binary whatever D holds (R133). -/

namespace Sys2Proof.Machine

/-- AND, ORA, EOR: `v <- Load(o); a <- a op v; SetZN(a)` (R123 to R125). -/
def logicInto (g : Byte → Byte → Byte) (f : ValueForm) (op : Byte) (s : State) : Result :=
  let (v, s) := s.load f
  .next ((s.setRegZN .a (g s.a v)).retire op)

/-- BIT: Z from `a & v`, N and V from `v`; `a` is unchanged (R126). -/
def testBits (f : AddrForm) (op : Byte) (s : State) : Result :=
  let (v, s) := s.load (.mem f)
  .next ((s.setStatus (bitStatus s.status s.a v)).retire op)

/-- ADC (R127). -/
def addInto (f : ValueForm) (op : Byte) (s : State) : Result :=
  let (v, s) := s.load f
  .next (((s.setStatus (adcStatus s.status s.a v)).setReg .a (adcResult s.a v (flagOf s.status .c))).retire op)

/-- SBC (R128). -/
def subtractFrom (f : ValueForm) (op : Byte) (s : State) : Result :=
  let (v, s) := s.load f
  .next (((s.setStatus (sbcStatus s.status s.a v)).setReg .a (sbcResult s.a v (flagOf s.status .c))).retire op)

/-- CMP, CPX, CPY: C, Z and N from `r - v`; no register is written (R129 to R131, R134). -/
def compareReg (r : Reg) (f : ValueForm) (op : Byte) (s : State) : Result :=
  let (v, s) := s.load f
  .next ((s.setStatus (compareStatus s.status (s.getReg r) v)).retire op)

/-- AND, Immediate: 0x29 (R123). -/
def execAndImm (nn : Byte) (s : State) : Result := logicInto (· &&& ·) (.imm nn) 0x29#8 s

/-- AND, Zero Page: 0x25 (R123). -/
def execAndZp (zz : Byte) (s : State) : Result := logicInto (· &&& ·) (.mem (.zp zz)) 0x25#8 s

/-- AND, Zero Page,X: 0x35 (R123). -/
def execAndZpx (zz : Byte) (s : State) : Result := logicInto (· &&& ·) (.mem (.zpx zz)) 0x35#8 s

/-- AND, Absolute: 0x2D (R123). -/
def execAndAbs (hhll : Addr) (s : State) : Result := logicInto (· &&& ·) (.mem (.abs hhll)) 0x2D#8 s

/-- AND, Absolute,X: 0x3D (R123). -/
def execAndAbsx (hhll : Addr) (s : State) : Result := logicInto (· &&& ·) (.mem (.absx hhll)) 0x3D#8 s

/-- AND, Absolute,Y: 0x39 (R123). -/
def execAndAbsy (hhll : Addr) (s : State) : Result := logicInto (· &&& ·) (.mem (.absy hhll)) 0x39#8 s

/-- AND, (Indirect,X): 0x21 (R123). -/
def execAndIndx (zz : Byte) (s : State) : Result := logicInto (· &&& ·) (.mem (.indx zz)) 0x21#8 s

/-- AND, (Indirect),Y: 0x31 (R123). -/
def execAndIndy (zz : Byte) (s : State) : Result := logicInto (· &&& ·) (.mem (.indy zz)) 0x31#8 s

/-- ORA, Immediate: 0x09 (R124). -/
def execOraImm (nn : Byte) (s : State) : Result := logicInto (· ||| ·) (.imm nn) 0x09#8 s

/-- ORA, Zero Page: 0x05 (R124). -/
def execOraZp (zz : Byte) (s : State) : Result := logicInto (· ||| ·) (.mem (.zp zz)) 0x05#8 s

/-- ORA, Zero Page,X: 0x15 (R124). -/
def execOraZpx (zz : Byte) (s : State) : Result := logicInto (· ||| ·) (.mem (.zpx zz)) 0x15#8 s

/-- ORA, Absolute: 0x0D (R124). -/
def execOraAbs (hhll : Addr) (s : State) : Result := logicInto (· ||| ·) (.mem (.abs hhll)) 0x0D#8 s

/-- ORA, Absolute,X: 0x1D (R124). -/
def execOraAbsx (hhll : Addr) (s : State) : Result := logicInto (· ||| ·) (.mem (.absx hhll)) 0x1D#8 s

/-- ORA, Absolute,Y: 0x19 (R124). -/
def execOraAbsy (hhll : Addr) (s : State) : Result := logicInto (· ||| ·) (.mem (.absy hhll)) 0x19#8 s

/-- ORA, (Indirect,X): 0x01 (R124). -/
def execOraIndx (zz : Byte) (s : State) : Result := logicInto (· ||| ·) (.mem (.indx zz)) 0x01#8 s

/-- ORA, (Indirect),Y: 0x11 (R124). -/
def execOraIndy (zz : Byte) (s : State) : Result := logicInto (· ||| ·) (.mem (.indy zz)) 0x11#8 s

/-- EOR, Immediate: 0x49 (R125). -/
def execEorImm (nn : Byte) (s : State) : Result := logicInto (· ^^^ ·) (.imm nn) 0x49#8 s

/-- EOR, Zero Page: 0x45 (R125). -/
def execEorZp (zz : Byte) (s : State) : Result := logicInto (· ^^^ ·) (.mem (.zp zz)) 0x45#8 s

/-- EOR, Zero Page,X: 0x55 (R125). -/
def execEorZpx (zz : Byte) (s : State) : Result := logicInto (· ^^^ ·) (.mem (.zpx zz)) 0x55#8 s

/-- EOR, Absolute: 0x4D (R125). -/
def execEorAbs (hhll : Addr) (s : State) : Result := logicInto (· ^^^ ·) (.mem (.abs hhll)) 0x4D#8 s

/-- EOR, Absolute,X: 0x5D (R125). -/
def execEorAbsx (hhll : Addr) (s : State) : Result := logicInto (· ^^^ ·) (.mem (.absx hhll)) 0x5D#8 s

/-- EOR, Absolute,Y: 0x59 (R125). -/
def execEorAbsy (hhll : Addr) (s : State) : Result := logicInto (· ^^^ ·) (.mem (.absy hhll)) 0x59#8 s

/-- EOR, (Indirect,X): 0x41 (R125). -/
def execEorIndx (zz : Byte) (s : State) : Result := logicInto (· ^^^ ·) (.mem (.indx zz)) 0x41#8 s

/-- EOR, (Indirect),Y: 0x51 (R125). -/
def execEorIndy (zz : Byte) (s : State) : Result := logicInto (· ^^^ ·) (.mem (.indy zz)) 0x51#8 s

/-- BIT, Zero Page: 0x24 (R126). -/
def execBitZp (zz : Byte) (s : State) : Result := testBits (.zp zz) 0x24#8 s

/-- BIT, Absolute: 0x2C (R126). -/
def execBitAbs (hhll : Addr) (s : State) : Result := testBits (.abs hhll) 0x2C#8 s

/-- ADC, Immediate: 0x69 (R127). -/
def execAdcImm (nn : Byte) (s : State) : Result := addInto (.imm nn) 0x69#8 s

/-- ADC, Zero Page: 0x65 (R127). -/
def execAdcZp (zz : Byte) (s : State) : Result := addInto (.mem (.zp zz)) 0x65#8 s

/-- ADC, Zero Page,X: 0x75 (R127). -/
def execAdcZpx (zz : Byte) (s : State) : Result := addInto (.mem (.zpx zz)) 0x75#8 s

/-- ADC, Absolute: 0x6D (R127). -/
def execAdcAbs (hhll : Addr) (s : State) : Result := addInto (.mem (.abs hhll)) 0x6D#8 s

/-- ADC, Absolute,X: 0x7D (R127). -/
def execAdcAbsx (hhll : Addr) (s : State) : Result := addInto (.mem (.absx hhll)) 0x7D#8 s

/-- ADC, Absolute,Y: 0x79 (R127). -/
def execAdcAbsy (hhll : Addr) (s : State) : Result := addInto (.mem (.absy hhll)) 0x79#8 s

/-- ADC, (Indirect,X): 0x61 (R127). -/
def execAdcIndx (zz : Byte) (s : State) : Result := addInto (.mem (.indx zz)) 0x61#8 s

/-- ADC, (Indirect),Y: 0x71 (R127). -/
def execAdcIndy (zz : Byte) (s : State) : Result := addInto (.mem (.indy zz)) 0x71#8 s

/-- SBC, Immediate: 0xE9 (R128). -/
def execSbcImm (nn : Byte) (s : State) : Result := subtractFrom (.imm nn) 0xE9#8 s

/-- SBC, Zero Page: 0xE5 (R128). -/
def execSbcZp (zz : Byte) (s : State) : Result := subtractFrom (.mem (.zp zz)) 0xE5#8 s

/-- SBC, Zero Page,X: 0xF5 (R128). -/
def execSbcZpx (zz : Byte) (s : State) : Result := subtractFrom (.mem (.zpx zz)) 0xF5#8 s

/-- SBC, Absolute: 0xED (R128). -/
def execSbcAbs (hhll : Addr) (s : State) : Result := subtractFrom (.mem (.abs hhll)) 0xED#8 s

/-- SBC, Absolute,X: 0xFD (R128). -/
def execSbcAbsx (hhll : Addr) (s : State) : Result := subtractFrom (.mem (.absx hhll)) 0xFD#8 s

/-- SBC, Absolute,Y: 0xF9 (R128). -/
def execSbcAbsy (hhll : Addr) (s : State) : Result := subtractFrom (.mem (.absy hhll)) 0xF9#8 s

/-- SBC, (Indirect,X): 0xE1 (R128). -/
def execSbcIndx (zz : Byte) (s : State) : Result := subtractFrom (.mem (.indx zz)) 0xE1#8 s

/-- SBC, (Indirect),Y: 0xF1 (R128). -/
def execSbcIndy (zz : Byte) (s : State) : Result := subtractFrom (.mem (.indy zz)) 0xF1#8 s

/-- CMP, Immediate: 0xC9 (R129). -/
def execCmpImm (nn : Byte) (s : State) : Result := compareReg .a (.imm nn) 0xC9#8 s

/-- CMP, Zero Page: 0xC5 (R129). -/
def execCmpZp (zz : Byte) (s : State) : Result := compareReg .a (.mem (.zp zz)) 0xC5#8 s

/-- CMP, Zero Page,X: 0xD5 (R129). -/
def execCmpZpx (zz : Byte) (s : State) : Result := compareReg .a (.mem (.zpx zz)) 0xD5#8 s

/-- CMP, Absolute: 0xCD (R129). -/
def execCmpAbs (hhll : Addr) (s : State) : Result := compareReg .a (.mem (.abs hhll)) 0xCD#8 s

/-- CMP, Absolute,X: 0xDD (R129). -/
def execCmpAbsx (hhll : Addr) (s : State) : Result := compareReg .a (.mem (.absx hhll)) 0xDD#8 s

/-- CMP, Absolute,Y: 0xD9 (R129). -/
def execCmpAbsy (hhll : Addr) (s : State) : Result := compareReg .a (.mem (.absy hhll)) 0xD9#8 s

/-- CMP, (Indirect,X): 0xC1 (R129). -/
def execCmpIndx (zz : Byte) (s : State) : Result := compareReg .a (.mem (.indx zz)) 0xC1#8 s

/-- CMP, (Indirect),Y: 0xD1 (R129). -/
def execCmpIndy (zz : Byte) (s : State) : Result := compareReg .a (.mem (.indy zz)) 0xD1#8 s

/-- CPX, Immediate: 0xE0 (R130). -/
def execCpxImm (nn : Byte) (s : State) : Result := compareReg .x (.imm nn) 0xE0#8 s

/-- CPX, Zero Page: 0xE4 (R130). -/
def execCpxZp (zz : Byte) (s : State) : Result := compareReg .x (.mem (.zp zz)) 0xE4#8 s

/-- CPX, Absolute: 0xEC (R130). -/
def execCpxAbs (hhll : Addr) (s : State) : Result := compareReg .x (.mem (.abs hhll)) 0xEC#8 s

/-- CPY, Immediate: 0xC0 (R131). -/
def execCpyImm (nn : Byte) (s : State) : Result := compareReg .y (.imm nn) 0xC0#8 s

/-- CPY, Zero Page: 0xC4 (R131). -/
def execCpyZp (zz : Byte) (s : State) : Result := compareReg .y (.mem (.zp zz)) 0xC4#8 s

/-- CPY, Absolute: 0xCC (R131). -/
def execCpyAbs (hhll : Addr) (s : State) : Result := compareReg .y (.mem (.abs hhll)) 0xCC#8 s

end Sys2Proof.Machine
end

