-- ==== Sys2Proof/Machine/Control.lean ====
section
/-! DEFINITION. Jumps, calls, returns and branches (`45_control.md`). `pc` is the address after the instruction's last byte when a
meaning begins (R76). -/

namespace Sys2Proof.Machine

/-- JMP: `pc <- t`, the target byte is not read (R147). -/
def jumpTo (f : JumpForm) (op : Byte) (s : State) : Result :=
  let (t, s) := s.jumpTarget f
  .next ((s.jump t).retire op)

/-- Every branch: if the flag has the value, `sext_16(dd)` is added to `pc` and one cycle to the count (R150, R197). -/
def branchIf (f : Flag) (value : Bool) (dd op : Byte) (s : State) : Result :=
  if flagOf s.status f = value then .next ((s.jump (s.pc + sext16 dd)).retireTaken op) else .next (s.retire op)

/-- JMP, Absolute: 0x4C (R147). -/
def execJmpAbs (hhll : Addr) (s : State) : Result := jumpTo (.abs hhll) 0x4C#8 s

/-- JMP, Indirect: 0x6C (R147). -/
def execJmpInd (hhll : Addr) (s : State) : Result := jumpTo (.ind hhll) 0x6C#8 s

/-- JSR, Absolute: 0x20 (R148). -/
def execJsr (hhll : Addr) (s : State) : Result := .next (((s.pushWord (s.pc - 1#16)).jump hhll).retire 0x20#8)

/-- RTS, Implied: 0x60 (R149). -/
def execRts (s : State) : Result :=
  let (t, s) := s.pullWord
  .next ((s.jump (t + 1#16)).retire 0x60#8)

/-- BPL, Relative: 0x10 (R151). -/
def execBpl (dd : Byte) (s : State) : Result := branchIf .n false dd 0x10#8 s

/-- BMI, Relative: 0x30 (R152). -/
def execBmi (dd : Byte) (s : State) : Result := branchIf .n true dd 0x30#8 s

/-- BVC, Relative: 0x50 (R153). -/
def execBvc (dd : Byte) (s : State) : Result := branchIf .v false dd 0x50#8 s

/-- BVS, Relative: 0x70 (R154). -/
def execBvs (dd : Byte) (s : State) : Result := branchIf .v true dd 0x70#8 s

/-- BCC, Relative: 0x90 (R155). -/
def execBcc (dd : Byte) (s : State) : Result := branchIf .c false dd 0x90#8 s

/-- BCS, Relative: 0xB0 (R156). -/
def execBcs (dd : Byte) (s : State) : Result := branchIf .c true dd 0xB0#8 s

/-- BNE, Relative: 0xD0 (R157). -/
def execBne (dd : Byte) (s : State) : Result := branchIf .z false dd 0xD0#8 s

/-- BEQ, Relative: 0xF0 (R158). -/
def execBeq (dd : Byte) (s : State) : Result := branchIf .z true dd 0xF0#8 s

end Sys2Proof.Machine
end

