-- ==== Sys2Proof/Machine/IncShift.lean ====
section
/-! DEFINITION. The increments, decrements, shifts and rotates (`44_incdec_shift.md`). A memory form makes one read and then
one write of the same address (R145). -/

namespace Sys2Proof.Machine

/-- INC, DEC: `v <- MemRead(ea, 1); r <- g(v); MemWrite(ea, 1, r); SetZN(r)` (R135, R136, R145). -/
def stepMemory (g : Byte → Byte) (f : AddrForm) (op : Byte) (s : State) : Result :=
  let (ea, s) := s.resolve f
  let (v, s) := s.memRead ea
  .next (((s.memWrite ea (g v)).setZN (g v)).retire op)

/-- INX, INY, DEX, DEY: `r <- g(r); SetZN(r)` (R137 to R140). -/
def stepReg (g : Byte → Byte) (r : Reg) (op : Byte) (s : State) : Result :=
  .next ((s.setRegZN r (g (s.getReg r))).retire op)

/-- ASL, LSR, ROL, ROR on the accumulator or on memory: C, Z and N from the shifted byte, which goes back where the operand
came from (R92, R141 to R145). -/
def shiftTarget (g : Byte → Bool → Shifted) (o : TargetForm) (op : Byte) (s : State) : Result :=
  match o with
  | .acc =>
    let r := g s.a (flagOf s.status .c)
    .next (((s.setStatus (shiftStatus s.status r)).setReg .a r.result).retire op)
  | .mem f =>
    let (ea, s) := s.resolve f
    let (v, s) := s.memRead ea
    let r := g v (flagOf s.status .c)
    .next (((s.setStatus (shiftStatus s.status r)).memWrite ea r.result).retire op)

/-- INC, Zero Page: 0xE6 (R135). -/
def execIncZp (zz : Byte) (s : State) : Result := stepMemory incByte (.zp zz) 0xE6#8 s

/-- INC, Zero Page,X: 0xF6 (R135). -/
def execIncZpx (zz : Byte) (s : State) : Result := stepMemory incByte (.zpx zz) 0xF6#8 s

/-- INC, Absolute: 0xEE (R135). -/
def execIncAbs (hhll : Addr) (s : State) : Result := stepMemory incByte (.abs hhll) 0xEE#8 s

/-- INC, Absolute,X: 0xFE (R135). -/
def execIncAbsx (hhll : Addr) (s : State) : Result := stepMemory incByte (.absx hhll) 0xFE#8 s

/-- DEC, Zero Page: 0xC6 (R136). -/
def execDecZp (zz : Byte) (s : State) : Result := stepMemory decByte (.zp zz) 0xC6#8 s

/-- DEC, Zero Page,X: 0xD6 (R136). -/
def execDecZpx (zz : Byte) (s : State) : Result := stepMemory decByte (.zpx zz) 0xD6#8 s

/-- DEC, Absolute: 0xCE (R136). -/
def execDecAbs (hhll : Addr) (s : State) : Result := stepMemory decByte (.abs hhll) 0xCE#8 s

/-- DEC, Absolute,X: 0xDE (R136). -/
def execDecAbsx (hhll : Addr) (s : State) : Result := stepMemory decByte (.absx hhll) 0xDE#8 s

/-- INX, Implied: 0xE8 (R137). -/
def execInx (s : State) : Result := stepReg incByte .x 0xE8#8 s

/-- INY, Implied: 0xC8 (R138). -/
def execIny (s : State) : Result := stepReg incByte .y 0xC8#8 s

/-- DEX, Implied: 0xCA (R139). -/
def execDex (s : State) : Result := stepReg decByte .x 0xCA#8 s

/-- DEY, Implied: 0x88 (R140). -/
def execDey (s : State) : Result := stepReg decByte .y 0x88#8 s

/-- ASL, Accumulator: 0x0A (R141). -/
def execAslAcc (s : State) : Result := shiftTarget shiftAsl .acc 0x0A#8 s

/-- ASL, Zero Page: 0x06 (R141). -/
def execAslZp (zz : Byte) (s : State) : Result := shiftTarget shiftAsl (.mem (.zp zz)) 0x06#8 s

/-- ASL, Zero Page,X: 0x16 (R141). -/
def execAslZpx (zz : Byte) (s : State) : Result := shiftTarget shiftAsl (.mem (.zpx zz)) 0x16#8 s

/-- ASL, Absolute: 0x0E (R141). -/
def execAslAbs (hhll : Addr) (s : State) : Result := shiftTarget shiftAsl (.mem (.abs hhll)) 0x0E#8 s

/-- ASL, Absolute,X: 0x1E (R141). -/
def execAslAbsx (hhll : Addr) (s : State) : Result := shiftTarget shiftAsl (.mem (.absx hhll)) 0x1E#8 s

/-- LSR, Accumulator: 0x4A (R142). -/
def execLsrAcc (s : State) : Result := shiftTarget shiftLsr .acc 0x4A#8 s

/-- LSR, Zero Page: 0x46 (R142). -/
def execLsrZp (zz : Byte) (s : State) : Result := shiftTarget shiftLsr (.mem (.zp zz)) 0x46#8 s

/-- LSR, Zero Page,X: 0x56 (R142). -/
def execLsrZpx (zz : Byte) (s : State) : Result := shiftTarget shiftLsr (.mem (.zpx zz)) 0x56#8 s

/-- LSR, Absolute: 0x4E (R142). -/
def execLsrAbs (hhll : Addr) (s : State) : Result := shiftTarget shiftLsr (.mem (.abs hhll)) 0x4E#8 s

/-- LSR, Absolute,X: 0x5E (R142). -/
def execLsrAbsx (hhll : Addr) (s : State) : Result := shiftTarget shiftLsr (.mem (.absx hhll)) 0x5E#8 s

/-- ROL, Accumulator: 0x2A (R143). -/
def execRolAcc (s : State) : Result := shiftTarget shiftRol .acc 0x2A#8 s

/-- ROL, Zero Page: 0x26 (R143). -/
def execRolZp (zz : Byte) (s : State) : Result := shiftTarget shiftRol (.mem (.zp zz)) 0x26#8 s

/-- ROL, Zero Page,X: 0x36 (R143). -/
def execRolZpx (zz : Byte) (s : State) : Result := shiftTarget shiftRol (.mem (.zpx zz)) 0x36#8 s

/-- ROL, Absolute: 0x2E (R143). -/
def execRolAbs (hhll : Addr) (s : State) : Result := shiftTarget shiftRol (.mem (.abs hhll)) 0x2E#8 s

/-- ROL, Absolute,X: 0x3E (R143). -/
def execRolAbsx (hhll : Addr) (s : State) : Result := shiftTarget shiftRol (.mem (.absx hhll)) 0x3E#8 s

/-- ROR, Accumulator: 0x6A (R144). -/
def execRorAcc (s : State) : Result := shiftTarget shiftRor .acc 0x6A#8 s

/-- ROR, Zero Page: 0x66 (R144). -/
def execRorZp (zz : Byte) (s : State) : Result := shiftTarget shiftRor (.mem (.zp zz)) 0x66#8 s

/-- ROR, Zero Page,X: 0x76 (R144). -/
def execRorZpx (zz : Byte) (s : State) : Result := shiftTarget shiftRor (.mem (.zpx zz)) 0x76#8 s

/-- ROR, Absolute: 0x6E (R144). -/
def execRorAbs (hhll : Addr) (s : State) : Result := shiftTarget shiftRor (.mem (.abs hhll)) 0x6E#8 s

/-- ROR, Absolute,X: 0x7E (R144). -/
def execRorAbsx (hhll : Addr) (s : State) : Result := shiftTarget shiftRor (.mem (.absx hhll)) 0x7E#8 s

end Sys2Proof.Machine
end

