-- ==== Sys2Proof/Machine/LoadStore.lean ====
section
/-! DEFINITION. Loads, stores and register transfers (`41_load_store_transfer.md`). -/

namespace Sys2Proof.Machine

/-- LDA, LDX, LDY: `v <- Load(o); r <- v; SetZN(v)` (R101 to R103). -/
def loadInto (r : Reg) (f : ValueForm) (op : Byte) (s : State) : Result :=
  let (v, s) := s.load f
  .next ((s.setRegZN r v).retire op)

/-- STA, STX, STY: `MemWrite(ea, 1, r)`, with no read of `ea` and no flag written (R104 to R106). -/
def storeFrom (r : Reg) (f : AddrForm) (op : Byte) (s : State) : Result :=
  let (ea, s) := s.resolve f
  .next ((s.memWrite ea (s.getReg r)).retire op)

/-- TAX, TAY, TXA, TYA: `d <- r; SetZN(d)` (R107 to R110). -/
def transfer (r d : Reg) (op : Byte) (s : State) : Result := .next ((s.setRegZN d (s.getReg r)).retire op)

/-- LDA, Immediate: 0xA9 (R101). -/
def execLdaImm (nn : Byte) (s : State) : Result := loadInto .a (.imm nn) 0xA9#8 s

/-- LDA, Zero Page: 0xA5 (R101). -/
def execLdaZp (zz : Byte) (s : State) : Result := loadInto .a (.mem (.zp zz)) 0xA5#8 s

/-- LDA, Zero Page,X: 0xB5 (R101). -/
def execLdaZpx (zz : Byte) (s : State) : Result := loadInto .a (.mem (.zpx zz)) 0xB5#8 s

/-- LDA, Absolute: 0xAD (R101). -/
def execLdaAbs (hhll : Addr) (s : State) : Result := loadInto .a (.mem (.abs hhll)) 0xAD#8 s

/-- LDA, Absolute,X: 0xBD (R101). -/
def execLdaAbsx (hhll : Addr) (s : State) : Result := loadInto .a (.mem (.absx hhll)) 0xBD#8 s

/-- LDA, Absolute,Y: 0xB9 (R101). -/
def execLdaAbsy (hhll : Addr) (s : State) : Result := loadInto .a (.mem (.absy hhll)) 0xB9#8 s

/-- LDA, (Indirect,X): 0xA1 (R101). -/
def execLdaIndx (zz : Byte) (s : State) : Result := loadInto .a (.mem (.indx zz)) 0xA1#8 s

/-- LDA, (Indirect),Y: 0xB1 (R101). -/
def execLdaIndy (zz : Byte) (s : State) : Result := loadInto .a (.mem (.indy zz)) 0xB1#8 s

/-- LDX, Immediate: 0xA2 (R102). -/
def execLdxImm (nn : Byte) (s : State) : Result := loadInto .x (.imm nn) 0xA2#8 s

/-- LDX, Zero Page: 0xA6 (R102). -/
def execLdxZp (zz : Byte) (s : State) : Result := loadInto .x (.mem (.zp zz)) 0xA6#8 s

/-- LDX, Zero Page,Y: 0xB6 (R102). -/
def execLdxZpy (zz : Byte) (s : State) : Result := loadInto .x (.mem (.zpy zz)) 0xB6#8 s

/-- LDX, Absolute: 0xAE (R102). -/
def execLdxAbs (hhll : Addr) (s : State) : Result := loadInto .x (.mem (.abs hhll)) 0xAE#8 s

/-- LDX, Absolute,Y: 0xBE (R102). -/
def execLdxAbsy (hhll : Addr) (s : State) : Result := loadInto .x (.mem (.absy hhll)) 0xBE#8 s

/-- LDY, Immediate: 0xA0 (R103). -/
def execLdyImm (nn : Byte) (s : State) : Result := loadInto .y (.imm nn) 0xA0#8 s

/-- LDY, Zero Page: 0xA4 (R103). -/
def execLdyZp (zz : Byte) (s : State) : Result := loadInto .y (.mem (.zp zz)) 0xA4#8 s

/-- LDY, Zero Page,X: 0xB4 (R103). -/
def execLdyZpx (zz : Byte) (s : State) : Result := loadInto .y (.mem (.zpx zz)) 0xB4#8 s

/-- LDY, Absolute: 0xAC (R103). -/
def execLdyAbs (hhll : Addr) (s : State) : Result := loadInto .y (.mem (.abs hhll)) 0xAC#8 s

/-- LDY, Absolute,X: 0xBC (R103). -/
def execLdyAbsx (hhll : Addr) (s : State) : Result := loadInto .y (.mem (.absx hhll)) 0xBC#8 s

/-- STA, Zero Page: 0x85 (R104). -/
def execStaZp (zz : Byte) (s : State) : Result := storeFrom .a (.zp zz) 0x85#8 s

/-- STA, Zero Page,X: 0x95 (R104). -/
def execStaZpx (zz : Byte) (s : State) : Result := storeFrom .a (.zpx zz) 0x95#8 s

/-- STA, Absolute: 0x8D (R104). -/
def execStaAbs (hhll : Addr) (s : State) : Result := storeFrom .a (.abs hhll) 0x8D#8 s

/-- STA, Absolute,X: 0x9D (R104). -/
def execStaAbsx (hhll : Addr) (s : State) : Result := storeFrom .a (.absx hhll) 0x9D#8 s

/-- STA, Absolute,Y: 0x99 (R104). -/
def execStaAbsy (hhll : Addr) (s : State) : Result := storeFrom .a (.absy hhll) 0x99#8 s

/-- STA, (Indirect,X): 0x81 (R104). -/
def execStaIndx (zz : Byte) (s : State) : Result := storeFrom .a (.indx zz) 0x81#8 s

/-- STA, (Indirect),Y: 0x91 (R104). -/
def execStaIndy (zz : Byte) (s : State) : Result := storeFrom .a (.indy zz) 0x91#8 s

/-- STX, Zero Page: 0x86 (R105). -/
def execStxZp (zz : Byte) (s : State) : Result := storeFrom .x (.zp zz) 0x86#8 s

/-- STX, Zero Page,Y: 0x96 (R105). -/
def execStxZpy (zz : Byte) (s : State) : Result := storeFrom .x (.zpy zz) 0x96#8 s

/-- STX, Absolute: 0x8E (R105). -/
def execStxAbs (hhll : Addr) (s : State) : Result := storeFrom .x (.abs hhll) 0x8E#8 s

/-- STY, Zero Page: 0x84 (R106). -/
def execStyZp (zz : Byte) (s : State) : Result := storeFrom .y (.zp zz) 0x84#8 s

/-- STY, Zero Page,X: 0x94 (R106). -/
def execStyZpx (zz : Byte) (s : State) : Result := storeFrom .y (.zpx zz) 0x94#8 s

/-- STY, Absolute: 0x8C (R106). -/
def execStyAbs (hhll : Addr) (s : State) : Result := storeFrom .y (.abs hhll) 0x8C#8 s

/-- TAX, Implied: 0xAA (R107). -/
def execTax (s : State) : Result := transfer .a .x 0xAA#8 s

/-- TAY, Implied: 0xA8 (R108). -/
def execTay (s : State) : Result := transfer .a .y 0xA8#8 s

/-- TXA, Implied: 0x8A (R109). -/
def execTxa (s : State) : Result := transfer .x .a 0x8A#8 s

/-- TYA, Implied: 0x98 (R110). -/
def execTya (s : State) : Result := transfer .y .a 0x98#8 s

/-- TSX, Implied: 0xBA (R111). -/
def execTsx (s : State) : Result := .next ((s.setRegZN .x s.sp).retire 0xBA#8)

/-- TXS, Implied: 0x9A (R112). -/
def execTxs (s : State) : Result := .next (State.retire { s with sp := s.x } 0x9A#8)

end Sys2Proof.Machine
end

