-- ==== Sys2Proof/Machine/Stack.lean ====
section
/-! DEFINITION. The stack instructions (`42_stack.md` R119 to R122). -/

namespace Sys2Proof.Machine

/-- PHA, Implied: 0x48 (R119). -/
def execPha (s : State) : Result := .next ((s.push s.a).retire 0x48#8)

/-- PHP, Implied: 0x08 (R120). -/
def execPhp (s : State) : Result := .next ((s.push (pushedStatus s.status)).retire 0x08#8)

/-- PLA, Implied: 0x68 (R121). -/
def execPla (s : State) : Result :=
  let (v, s) := s.pull
  .next ((s.setRegZN .a v).retire 0x68#8)

/-- PLP, Implied: 0x28 (R122). -/
def execPlp (s : State) : Result :=
  let (v, s) := s.pull
  .next ((s.setStatus (pulledStatus v)).retire 0x28#8)

end Sys2Proof.Machine
end

