-- ==== Sys2Proof/Machine/System.lean ====
section
/-! DEFINITION. The flag instructions, BRK, RTI and NOP (`46_flag_system.md`), and the unassigned bytes (`40_engine.md` R95). -/

namespace Sys2Proof.Machine

/-- CLC, CLD, CLI, CLV, SEC, SED, SEI: exactly one bit is written (R160 to R166). -/
def writeFlag (f : Flag) (value : Bool) (op : Byte) (s : State) : Result := .next ((s.setFlag f value).retire op)

/-- An unassigned byte under a policy: `nop` changes nothing but `pc`, which the fetch has advanced, and returns 0; `refuse`
refuses the tick (R95, R185, R199; decision D6). -/
def runUnassigned (policy : Config.UnassignedPolicy) (op : Byte) (s : State) : Result :=
  match policy with
  | .nop => .next (s.returning 0#8)
  | .refuse => .refused (.unassignedOpcode op)

/-- CLC, Implied: 0x18 (R160). -/
def execClc (s : State) : Result := writeFlag .c false 0x18#8 s

/-- CLD, Implied: 0xD8 (R161). -/
def execCld (s : State) : Result := writeFlag .d false 0xD8#8 s

/-- CLI, Implied: 0x58 (R162). -/
def execCli (s : State) : Result := writeFlag .i false 0x58#8 s

/-- CLV, Implied: 0xB8 (R163). -/
def execClv (s : State) : Result := writeFlag .v false 0xB8#8 s

/-- SEC, Implied: 0x38 (R164). -/
def execSec (s : State) : Result := writeFlag .c true 0x38#8 s

/-- SED, Implied: 0xF8 (R165). -/
def execSed (s : State) : Result := writeFlag .d true 0xF8#8 s

/-- SEI, Implied: 0x78 (R166). -/
def execSei (s : State) : Result := writeFlag .i true 0x78#8 s

/-- BRK, Implied: 0x00 (R167). -/
def execBrk (s : State) : Result := .next (s.enterTrap.retire 0x00#8)

/-- RTI, Implied: 0x40 (R168). -/
def execRti (s : State) : Result := .next (s.leaveTrap.retire 0x40#8)

/-- NOP, Implied: 0xEA (R169). -/
def execNop (s : State) : Result := .next (s.retire 0xEA#8)

/-- UNASSIGNED: the 105 bytes of R66 (R95). -/
def execUnassigned (op : Byte) (s : State) : Result := runUnassigned Config.unassignedPolicy op s

end Sys2Proof.Machine
end

