-- ==== Sys2Proof/Syntax.lean ====
section
/-! DEFINITION. The instructions: one constructor per assigned row of spec/opcode_table.json (151 opcode bytes, 56
mnemonics), and one for its 105 `UNASSIGNED` rows, which carries the row's byte (`30_encoding.md` R61 to R67). A constructor
is named by its mnemonic and, where the mnemonic has several rows, the row's format. Operands are the fields of R63: `nn`, `zz`
and `dd` a byte, `hhll` the word `hh : ll`. -/

namespace Sys2Proof

/-- The instructions, in the table's order. -/
inductive Instr where
  | brk
  | oraIndx (zz : Byte)
  | oraZp (zz : Byte)
  | aslZp (zz : Byte)
  | php
  | oraImm (nn : Byte)
  | aslAcc
  | oraAbs (hhll : Addr)
  | aslAbs (hhll : Addr)
  | bpl (dd : Byte)
  | oraIndy (zz : Byte)
  | oraZpx (zz : Byte)
  | aslZpx (zz : Byte)
  | clc
  | oraAbsy (hhll : Addr)
  | oraAbsx (hhll : Addr)
  | aslAbsx (hhll : Addr)
  | jsr (hhll : Addr)
  | andIndx (zz : Byte)
  | bitZp (zz : Byte)
  | andZp (zz : Byte)
  | rolZp (zz : Byte)
  | plp
  | andImm (nn : Byte)
  | rolAcc
  | bitAbs (hhll : Addr)
  | andAbs (hhll : Addr)
  | rolAbs (hhll : Addr)
  | bmi (dd : Byte)
  | andIndy (zz : Byte)
  | andZpx (zz : Byte)
  | rolZpx (zz : Byte)
  | sec
  | andAbsy (hhll : Addr)
  | andAbsx (hhll : Addr)
  | rolAbsx (hhll : Addr)
  | rti
  | eorIndx (zz : Byte)
  | eorZp (zz : Byte)
  | lsrZp (zz : Byte)
  | pha
  | eorImm (nn : Byte)
  | lsrAcc
  | jmpAbs (hhll : Addr)
  | eorAbs (hhll : Addr)
  | lsrAbs (hhll : Addr)
  | bvc (dd : Byte)
  | eorIndy (zz : Byte)
  | eorZpx (zz : Byte)
  | lsrZpx (zz : Byte)
  | cli
  | eorAbsy (hhll : Addr)
  | eorAbsx (hhll : Addr)
  | lsrAbsx (hhll : Addr)
  | rts
  | adcIndx (zz : Byte)
  | adcZp (zz : Byte)
  | rorZp (zz : Byte)
  | pla
  | adcImm (nn : Byte)
  | rorAcc
  | jmpInd (hhll : Addr)
  | adcAbs (hhll : Addr)
  | rorAbs (hhll : Addr)
  | bvs (dd : Byte)
  | adcIndy (zz : Byte)
  | adcZpx (zz : Byte)
  | rorZpx (zz : Byte)
  | sei
  | adcAbsy (hhll : Addr)
  | adcAbsx (hhll : Addr)
  | rorAbsx (hhll : Addr)
  | staIndx (zz : Byte)
  | styZp (zz : Byte)
  | staZp (zz : Byte)
  | stxZp (zz : Byte)
  | dey
  | txa
  | styAbs (hhll : Addr)
  | staAbs (hhll : Addr)
  | stxAbs (hhll : Addr)
  | bcc (dd : Byte)
  | staIndy (zz : Byte)
  | styZpx (zz : Byte)
  | staZpx (zz : Byte)
  | stxZpy (zz : Byte)
  | tya
  | staAbsy (hhll : Addr)
  | txs
  | staAbsx (hhll : Addr)
  | ldyImm (nn : Byte)
  | ldaIndx (zz : Byte)
  | ldxImm (nn : Byte)
  | ldyZp (zz : Byte)
  | ldaZp (zz : Byte)
  | ldxZp (zz : Byte)
  | tay
  | ldaImm (nn : Byte)
  | tax
  | ldyAbs (hhll : Addr)
  | ldaAbs (hhll : Addr)
  | ldxAbs (hhll : Addr)
  | bcs (dd : Byte)
  | ldaIndy (zz : Byte)
  | ldyZpx (zz : Byte)
  | ldaZpx (zz : Byte)
  | ldxZpy (zz : Byte)
  | clv
  | ldaAbsy (hhll : Addr)
  | tsx
  | ldyAbsx (hhll : Addr)
  | ldaAbsx (hhll : Addr)
  | ldxAbsy (hhll : Addr)
  | cpyImm (nn : Byte)
  | cmpIndx (zz : Byte)
  | cpyZp (zz : Byte)
  | cmpZp (zz : Byte)
  | decZp (zz : Byte)
  | iny
  | cmpImm (nn : Byte)
  | dex
  | cpyAbs (hhll : Addr)
  | cmpAbs (hhll : Addr)
  | decAbs (hhll : Addr)
  | bne (dd : Byte)
  | cmpIndy (zz : Byte)
  | cmpZpx (zz : Byte)
  | decZpx (zz : Byte)
  | cld
  | cmpAbsy (hhll : Addr)
  | cmpAbsx (hhll : Addr)
  | decAbsx (hhll : Addr)
  | cpxImm (nn : Byte)
  | sbcIndx (zz : Byte)
  | cpxZp (zz : Byte)
  | sbcZp (zz : Byte)
  | incZp (zz : Byte)
  | inx
  | sbcImm (nn : Byte)
  | nop
  | cpxAbs (hhll : Addr)
  | sbcAbs (hhll : Addr)
  | incAbs (hhll : Addr)
  | beq (dd : Byte)
  | sbcIndy (zz : Byte)
  | sbcZpx (zz : Byte)
  | incZpx (zz : Byte)
  | sed
  | sbcAbsy (hhll : Addr)
  | sbcAbsx (hhll : Addr)
  | incAbsx (hhll : Addr)
  /-- A byte of R66's list: a one-byte no-op (R95). `WellFormed` says that the byte is in the list. -/
  | unassigned (op : Byte)
  deriving DecidableEq, Repr

/-- The 56 mnemonics (R2), and `UNASSIGNED`. -/
inductive Mnemonic where
  | brk
  | ora
  | asl
  | php
  | bpl
  | clc
  | jsr
  | and
  | bit
  | rol
  | plp
  | bmi
  | sec
  | rti
  | eor
  | lsr
  | pha
  | jmp
  | bvc
  | cli
  | rts
  | adc
  | ror
  | pla
  | bvs
  | sei
  | sta
  | sty
  | stx
  | dey
  | txa
  | bcc
  | tya
  | txs
  | ldy
  | lda
  | ldx
  | tay
  | tax
  | bcs
  | clv
  | tsx
  | cpy
  | cmp
  | dec
  | iny
  | dex
  | bne
  | cld
  | cpx
  | sbc
  | inc
  | inx
  | nop
  | beq
  | sed
  | unassigned
  deriving DecidableEq, Repr

/-- The 13 formats, one per addressing mode, and that of an unassigned byte (R61, R70). -/
inductive Format where
  | imp
  | acc
  | imm
  | zp
  | zpx
  | zpy
  | abs
  | absx
  | absy
  | ind
  | indx
  | indy
  | rel
  | unassigned
  deriving DecidableEq, Repr

/-- The length in bytes of an instruction of a format (R61, R62). -/
def Format.length : Format → Nat
  | .imp => 1
  | .acc => 1
  | .imm => 2
  | .zp => 2
  | .zpx => 2
  | .zpy => 2
  | .abs => 3
  | .absx => 3
  | .absy => 3
  | .ind => 3
  | .indx => 2
  | .indy => 2
  | .rel => 2
  | .unassigned => 1

/-- The mnemonic as spec/opcode_table.json spells it (R70). -/
def Mnemonic.name : Mnemonic → String
  | .brk => "BRK"
  | .ora => "ORA"
  | .asl => "ASL"
  | .php => "PHP"
  | .bpl => "BPL"
  | .clc => "CLC"
  | .jsr => "JSR"
  | .and => "AND"
  | .bit => "BIT"
  | .rol => "ROL"
  | .plp => "PLP"
  | .bmi => "BMI"
  | .sec => "SEC"
  | .rti => "RTI"
  | .eor => "EOR"
  | .lsr => "LSR"
  | .pha => "PHA"
  | .jmp => "JMP"
  | .bvc => "BVC"
  | .cli => "CLI"
  | .rts => "RTS"
  | .adc => "ADC"
  | .ror => "ROR"
  | .pla => "PLA"
  | .bvs => "BVS"
  | .sei => "SEI"
  | .sta => "STA"
  | .sty => "STY"
  | .stx => "STX"
  | .dey => "DEY"
  | .txa => "TXA"
  | .bcc => "BCC"
  | .tya => "TYA"
  | .txs => "TXS"
  | .ldy => "LDY"
  | .lda => "LDA"
  | .ldx => "LDX"
  | .tay => "TAY"
  | .tax => "TAX"
  | .bcs => "BCS"
  | .clv => "CLV"
  | .tsx => "TSX"
  | .cpy => "CPY"
  | .cmp => "CMP"
  | .dec => "DEC"
  | .iny => "INY"
  | .dex => "DEX"
  | .bne => "BNE"
  | .cld => "CLD"
  | .cpx => "CPX"
  | .sbc => "SBC"
  | .inc => "INC"
  | .inx => "INX"
  | .nop => "NOP"
  | .beq => "BEQ"
  | .sed => "SED"
  | .unassigned => "UNASSIGNED"

/-- The mnemonic of an instruction's row (R70, R97). -/
def Instr.mnemonic : Instr → Mnemonic
  | .brk => .brk
  | .oraIndx _ => .ora
  | .oraZp _ => .ora
  | .aslZp _ => .asl
  | .php => .php
  | .oraImm _ => .ora
  | .aslAcc => .asl
  | .oraAbs _ => .ora
  | .aslAbs _ => .asl
  | .bpl _ => .bpl
  | .oraIndy _ => .ora
  | .oraZpx _ => .ora
  | .aslZpx _ => .asl
  | .clc => .clc
  | .oraAbsy _ => .ora
  | .oraAbsx _ => .ora
  | .aslAbsx _ => .asl
  | .jsr _ => .jsr
  | .andIndx _ => .and
  | .bitZp _ => .bit
  | .andZp _ => .and
  | .rolZp _ => .rol
  | .plp => .plp
  | .andImm _ => .and
  | .rolAcc => .rol
  | .bitAbs _ => .bit
  | .andAbs _ => .and
  | .rolAbs _ => .rol
  | .bmi _ => .bmi
  | .andIndy _ => .and
  | .andZpx _ => .and
  | .rolZpx _ => .rol
  | .sec => .sec
  | .andAbsy _ => .and
  | .andAbsx _ => .and
  | .rolAbsx _ => .rol
  | .rti => .rti
  | .eorIndx _ => .eor
  | .eorZp _ => .eor
  | .lsrZp _ => .lsr
  | .pha => .pha
  | .eorImm _ => .eor
  | .lsrAcc => .lsr
  | .jmpAbs _ => .jmp
  | .eorAbs _ => .eor
  | .lsrAbs _ => .lsr
  | .bvc _ => .bvc
  | .eorIndy _ => .eor
  | .eorZpx _ => .eor
  | .lsrZpx _ => .lsr
  | .cli => .cli
  | .eorAbsy _ => .eor
  | .eorAbsx _ => .eor
  | .lsrAbsx _ => .lsr
  | .rts => .rts
  | .adcIndx _ => .adc
  | .adcZp _ => .adc
  | .rorZp _ => .ror
  | .pla => .pla
  | .adcImm _ => .adc
  | .rorAcc => .ror
  | .jmpInd _ => .jmp
  | .adcAbs _ => .adc
  | .rorAbs _ => .ror
  | .bvs _ => .bvs
  | .adcIndy _ => .adc
  | .adcZpx _ => .adc
  | .rorZpx _ => .ror
  | .sei => .sei
  | .adcAbsy _ => .adc
  | .adcAbsx _ => .adc
  | .rorAbsx _ => .ror
  | .staIndx _ => .sta
  | .styZp _ => .sty
  | .staZp _ => .sta
  | .stxZp _ => .stx
  | .dey => .dey
  | .txa => .txa
  | .styAbs _ => .sty
  | .staAbs _ => .sta
  | .stxAbs _ => .stx
  | .bcc _ => .bcc
  | .staIndy _ => .sta
  | .styZpx _ => .sty
  | .staZpx _ => .sta
  | .stxZpy _ => .stx
  | .tya => .tya
  | .staAbsy _ => .sta
  | .txs => .txs
  | .staAbsx _ => .sta
  | .ldyImm _ => .ldy
  | .ldaIndx _ => .lda
  | .ldxImm _ => .ldx
  | .ldyZp _ => .ldy
  | .ldaZp _ => .lda
  | .ldxZp _ => .ldx
  | .tay => .tay
  | .ldaImm _ => .lda
  | .tax => .tax
  | .ldyAbs _ => .ldy
  | .ldaAbs _ => .lda
  | .ldxAbs _ => .ldx
  | .bcs _ => .bcs
  | .ldaIndy _ => .lda
  | .ldyZpx _ => .ldy
  | .ldaZpx _ => .lda
  | .ldxZpy _ => .ldx
  | .clv => .clv
  | .ldaAbsy _ => .lda
  | .tsx => .tsx
  | .ldyAbsx _ => .ldy
  | .ldaAbsx _ => .lda
  | .ldxAbsy _ => .ldx
  | .cpyImm _ => .cpy
  | .cmpIndx _ => .cmp
  | .cpyZp _ => .cpy
  | .cmpZp _ => .cmp
  | .decZp _ => .dec
  | .iny => .iny
  | .cmpImm _ => .cmp
  | .dex => .dex
  | .cpyAbs _ => .cpy
  | .cmpAbs _ => .cmp
  | .decAbs _ => .dec
  | .bne _ => .bne
  | .cmpIndy _ => .cmp
  | .cmpZpx _ => .cmp
  | .decZpx _ => .dec
  | .cld => .cld
  | .cmpAbsy _ => .cmp
  | .cmpAbsx _ => .cmp
  | .decAbsx _ => .dec
  | .cpxImm _ => .cpx
  | .sbcIndx _ => .sbc
  | .cpxZp _ => .cpx
  | .sbcZp _ => .sbc
  | .incZp _ => .inc
  | .inx => .inx
  | .sbcImm _ => .sbc
  | .nop => .nop
  | .cpxAbs _ => .cpx
  | .sbcAbs _ => .sbc
  | .incAbs _ => .inc
  | .beq _ => .beq
  | .sbcIndy _ => .sbc
  | .sbcZpx _ => .sbc
  | .incZpx _ => .inc
  | .sed => .sed
  | .sbcAbsy _ => .sbc
  | .sbcAbsx _ => .sbc
  | .incAbsx _ => .inc
  | .unassigned _ => .unassigned

/-- The format of an instruction's row (R70, R97). -/
def Instr.format : Instr → Format
  | .brk => .imp
  | .oraIndx _ => .indx
  | .oraZp _ => .zp
  | .aslZp _ => .zp
  | .php => .imp
  | .oraImm _ => .imm
  | .aslAcc => .acc
  | .oraAbs _ => .abs
  | .aslAbs _ => .abs
  | .bpl _ => .rel
  | .oraIndy _ => .indy
  | .oraZpx _ => .zpx
  | .aslZpx _ => .zpx
  | .clc => .imp
  | .oraAbsy _ => .absy
  | .oraAbsx _ => .absx
  | .aslAbsx _ => .absx
  | .jsr _ => .abs
  | .andIndx _ => .indx
  | .bitZp _ => .zp
  | .andZp _ => .zp
  | .rolZp _ => .zp
  | .plp => .imp
  | .andImm _ => .imm
  | .rolAcc => .acc
  | .bitAbs _ => .abs
  | .andAbs _ => .abs
  | .rolAbs _ => .abs
  | .bmi _ => .rel
  | .andIndy _ => .indy
  | .andZpx _ => .zpx
  | .rolZpx _ => .zpx
  | .sec => .imp
  | .andAbsy _ => .absy
  | .andAbsx _ => .absx
  | .rolAbsx _ => .absx
  | .rti => .imp
  | .eorIndx _ => .indx
  | .eorZp _ => .zp
  | .lsrZp _ => .zp
  | .pha => .imp
  | .eorImm _ => .imm
  | .lsrAcc => .acc
  | .jmpAbs _ => .abs
  | .eorAbs _ => .abs
  | .lsrAbs _ => .abs
  | .bvc _ => .rel
  | .eorIndy _ => .indy
  | .eorZpx _ => .zpx
  | .lsrZpx _ => .zpx
  | .cli => .imp
  | .eorAbsy _ => .absy
  | .eorAbsx _ => .absx
  | .lsrAbsx _ => .absx
  | .rts => .imp
  | .adcIndx _ => .indx
  | .adcZp _ => .zp
  | .rorZp _ => .zp
  | .pla => .imp
  | .adcImm _ => .imm
  | .rorAcc => .acc
  | .jmpInd _ => .ind
  | .adcAbs _ => .abs
  | .rorAbs _ => .abs
  | .bvs _ => .rel
  | .adcIndy _ => .indy
  | .adcZpx _ => .zpx
  | .rorZpx _ => .zpx
  | .sei => .imp
  | .adcAbsy _ => .absy
  | .adcAbsx _ => .absx
  | .rorAbsx _ => .absx
  | .staIndx _ => .indx
  | .styZp _ => .zp
  | .staZp _ => .zp
  | .stxZp _ => .zp
  | .dey => .imp
  | .txa => .imp
  | .styAbs _ => .abs
  | .staAbs _ => .abs
  | .stxAbs _ => .abs
  | .bcc _ => .rel
  | .staIndy _ => .indy
  | .styZpx _ => .zpx
  | .staZpx _ => .zpx
  | .stxZpy _ => .zpy
  | .tya => .imp
  | .staAbsy _ => .absy
  | .txs => .imp
  | .staAbsx _ => .absx
  | .ldyImm _ => .imm
  | .ldaIndx _ => .indx
  | .ldxImm _ => .imm
  | .ldyZp _ => .zp
  | .ldaZp _ => .zp
  | .ldxZp _ => .zp
  | .tay => .imp
  | .ldaImm _ => .imm
  | .tax => .imp
  | .ldyAbs _ => .abs
  | .ldaAbs _ => .abs
  | .ldxAbs _ => .abs
  | .bcs _ => .rel
  | .ldaIndy _ => .indy
  | .ldyZpx _ => .zpx
  | .ldaZpx _ => .zpx
  | .ldxZpy _ => .zpy
  | .clv => .imp
  | .ldaAbsy _ => .absy
  | .tsx => .imp
  | .ldyAbsx _ => .absx
  | .ldaAbsx _ => .absx
  | .ldxAbsy _ => .absy
  | .cpyImm _ => .imm
  | .cmpIndx _ => .indx
  | .cpyZp _ => .zp
  | .cmpZp _ => .zp
  | .decZp _ => .zp
  | .iny => .imp
  | .cmpImm _ => .imm
  | .dex => .imp
  | .cpyAbs _ => .abs
  | .cmpAbs _ => .abs
  | .decAbs _ => .abs
  | .bne _ => .rel
  | .cmpIndy _ => .indy
  | .cmpZpx _ => .zpx
  | .decZpx _ => .zpx
  | .cld => .imp
  | .cmpAbsy _ => .absy
  | .cmpAbsx _ => .absx
  | .decAbsx _ => .absx
  | .cpxImm _ => .imm
  | .sbcIndx _ => .indx
  | .cpxZp _ => .zp
  | .sbcZp _ => .zp
  | .incZp _ => .zp
  | .inx => .imp
  | .sbcImm _ => .imm
  | .nop => .imp
  | .cpxAbs _ => .abs
  | .sbcAbs _ => .abs
  | .incAbs _ => .abs
  | .beq _ => .rel
  | .sbcIndy _ => .indy
  | .sbcZpx _ => .zpx
  | .incZpx _ => .zpx
  | .sed => .imp
  | .sbcAbsy _ => .absy
  | .sbcAbsx _ => .absx
  | .incAbsx _ => .absx
  | .unassigned _ => .unassigned

end Sys2Proof
end

