-- ==== Sys2Proof/Machine/Dispatch.lean ====
section
/-! DEFINITION. `Execute` (`40_engine.md` R77): one arm per instruction, each one call of its meaning. -/

namespace Sys2Proof.Machine

def exec (i : Instr) (s : State) : Host.Outcome State Fault Refusal :=
  match i with
  | .brk => Sys2Proof.Machine.execBrk s
  | .oraIndx zz => Sys2Proof.Machine.execOraIndx zz s
  | .oraZp zz => Sys2Proof.Machine.execOraZp zz s
  | .aslZp zz => Sys2Proof.Machine.execAslZp zz s
  | .php => Sys2Proof.Machine.execPhp s
  | .oraImm nn => Sys2Proof.Machine.execOraImm nn s
  | .aslAcc => Sys2Proof.Machine.execAslAcc s
  | .oraAbs hhll => Sys2Proof.Machine.execOraAbs hhll s
  | .aslAbs hhll => Sys2Proof.Machine.execAslAbs hhll s
  | .bpl dd => Sys2Proof.Machine.execBpl dd s
  | .oraIndy zz => Sys2Proof.Machine.execOraIndy zz s
  | .oraZpx zz => Sys2Proof.Machine.execOraZpx zz s
  | .aslZpx zz => Sys2Proof.Machine.execAslZpx zz s
  | .clc => Sys2Proof.Machine.execClc s
  | .oraAbsy hhll => Sys2Proof.Machine.execOraAbsy hhll s
  | .oraAbsx hhll => Sys2Proof.Machine.execOraAbsx hhll s
  | .aslAbsx hhll => Sys2Proof.Machine.execAslAbsx hhll s
  | .jsr hhll => Sys2Proof.Machine.execJsr hhll s
  | .andIndx zz => Sys2Proof.Machine.execAndIndx zz s
  | .bitZp zz => Sys2Proof.Machine.execBitZp zz s
  | .andZp zz => Sys2Proof.Machine.execAndZp zz s
  | .rolZp zz => Sys2Proof.Machine.execRolZp zz s
  | .plp => Sys2Proof.Machine.execPlp s
  | .andImm nn => Sys2Proof.Machine.execAndImm nn s
  | .rolAcc => Sys2Proof.Machine.execRolAcc s
  | .bitAbs hhll => Sys2Proof.Machine.execBitAbs hhll s
  | .andAbs hhll => Sys2Proof.Machine.execAndAbs hhll s
  | .rolAbs hhll => Sys2Proof.Machine.execRolAbs hhll s
  | .bmi dd => Sys2Proof.Machine.execBmi dd s
  | .andIndy zz => Sys2Proof.Machine.execAndIndy zz s
  | .andZpx zz => Sys2Proof.Machine.execAndZpx zz s
  | .rolZpx zz => Sys2Proof.Machine.execRolZpx zz s
  | .sec => Sys2Proof.Machine.execSec s
  | .andAbsy hhll => Sys2Proof.Machine.execAndAbsy hhll s
  | .andAbsx hhll => Sys2Proof.Machine.execAndAbsx hhll s
  | .rolAbsx hhll => Sys2Proof.Machine.execRolAbsx hhll s
  | .rti => Sys2Proof.Machine.execRti s
  | .eorIndx zz => Sys2Proof.Machine.execEorIndx zz s
  | .eorZp zz => Sys2Proof.Machine.execEorZp zz s
  | .lsrZp zz => Sys2Proof.Machine.execLsrZp zz s
  | .pha => Sys2Proof.Machine.execPha s
  | .eorImm nn => Sys2Proof.Machine.execEorImm nn s
  | .lsrAcc => Sys2Proof.Machine.execLsrAcc s
  | .jmpAbs hhll => Sys2Proof.Machine.execJmpAbs hhll s
  | .eorAbs hhll => Sys2Proof.Machine.execEorAbs hhll s
  | .lsrAbs hhll => Sys2Proof.Machine.execLsrAbs hhll s
  | .bvc dd => Sys2Proof.Machine.execBvc dd s
  | .eorIndy zz => Sys2Proof.Machine.execEorIndy zz s
  | .eorZpx zz => Sys2Proof.Machine.execEorZpx zz s
  | .lsrZpx zz => Sys2Proof.Machine.execLsrZpx zz s
  | .cli => Sys2Proof.Machine.execCli s
  | .eorAbsy hhll => Sys2Proof.Machine.execEorAbsy hhll s
  | .eorAbsx hhll => Sys2Proof.Machine.execEorAbsx hhll s
  | .lsrAbsx hhll => Sys2Proof.Machine.execLsrAbsx hhll s
  | .rts => Sys2Proof.Machine.execRts s
  | .adcIndx zz => Sys2Proof.Machine.execAdcIndx zz s
  | .adcZp zz => Sys2Proof.Machine.execAdcZp zz s
  | .rorZp zz => Sys2Proof.Machine.execRorZp zz s
  | .pla => Sys2Proof.Machine.execPla s
  | .adcImm nn => Sys2Proof.Machine.execAdcImm nn s
  | .rorAcc => Sys2Proof.Machine.execRorAcc s
  | .jmpInd hhll => Sys2Proof.Machine.execJmpInd hhll s
  | .adcAbs hhll => Sys2Proof.Machine.execAdcAbs hhll s
  | .rorAbs hhll => Sys2Proof.Machine.execRorAbs hhll s
  | .bvs dd => Sys2Proof.Machine.execBvs dd s
  | .adcIndy zz => Sys2Proof.Machine.execAdcIndy zz s
  | .adcZpx zz => Sys2Proof.Machine.execAdcZpx zz s
  | .rorZpx zz => Sys2Proof.Machine.execRorZpx zz s
  | .sei => Sys2Proof.Machine.execSei s
  | .adcAbsy hhll => Sys2Proof.Machine.execAdcAbsy hhll s
  | .adcAbsx hhll => Sys2Proof.Machine.execAdcAbsx hhll s
  | .rorAbsx hhll => Sys2Proof.Machine.execRorAbsx hhll s
  | .staIndx zz => Sys2Proof.Machine.execStaIndx zz s
  | .styZp zz => Sys2Proof.Machine.execStyZp zz s
  | .staZp zz => Sys2Proof.Machine.execStaZp zz s
  | .stxZp zz => Sys2Proof.Machine.execStxZp zz s
  | .dey => Sys2Proof.Machine.execDey s
  | .txa => Sys2Proof.Machine.execTxa s
  | .styAbs hhll => Sys2Proof.Machine.execStyAbs hhll s
  | .staAbs hhll => Sys2Proof.Machine.execStaAbs hhll s
  | .stxAbs hhll => Sys2Proof.Machine.execStxAbs hhll s
  | .bcc dd => Sys2Proof.Machine.execBcc dd s
  | .staIndy zz => Sys2Proof.Machine.execStaIndy zz s
  | .styZpx zz => Sys2Proof.Machine.execStyZpx zz s
  | .staZpx zz => Sys2Proof.Machine.execStaZpx zz s
  | .stxZpy zz => Sys2Proof.Machine.execStxZpy zz s
  | .tya => Sys2Proof.Machine.execTya s
  | .staAbsy hhll => Sys2Proof.Machine.execStaAbsy hhll s
  | .txs => Sys2Proof.Machine.execTxs s
  | .staAbsx hhll => Sys2Proof.Machine.execStaAbsx hhll s
  | .ldyImm nn => Sys2Proof.Machine.execLdyImm nn s
  | .ldaIndx zz => Sys2Proof.Machine.execLdaIndx zz s
  | .ldxImm nn => Sys2Proof.Machine.execLdxImm nn s
  | .ldyZp zz => Sys2Proof.Machine.execLdyZp zz s
  | .ldaZp zz => Sys2Proof.Machine.execLdaZp zz s
  | .ldxZp zz => Sys2Proof.Machine.execLdxZp zz s
  | .tay => Sys2Proof.Machine.execTay s
  | .ldaImm nn => Sys2Proof.Machine.execLdaImm nn s
  | .tax => Sys2Proof.Machine.execTax s
  | .ldyAbs hhll => Sys2Proof.Machine.execLdyAbs hhll s
  | .ldaAbs hhll => Sys2Proof.Machine.execLdaAbs hhll s
  | .ldxAbs hhll => Sys2Proof.Machine.execLdxAbs hhll s
  | .bcs dd => Sys2Proof.Machine.execBcs dd s
  | .ldaIndy zz => Sys2Proof.Machine.execLdaIndy zz s
  | .ldyZpx zz => Sys2Proof.Machine.execLdyZpx zz s
  | .ldaZpx zz => Sys2Proof.Machine.execLdaZpx zz s
  | .ldxZpy zz => Sys2Proof.Machine.execLdxZpy zz s
  | .clv => Sys2Proof.Machine.execClv s
  | .ldaAbsy hhll => Sys2Proof.Machine.execLdaAbsy hhll s
  | .tsx => Sys2Proof.Machine.execTsx s
  | .ldyAbsx hhll => Sys2Proof.Machine.execLdyAbsx hhll s
  | .ldaAbsx hhll => Sys2Proof.Machine.execLdaAbsx hhll s
  | .ldxAbsy hhll => Sys2Proof.Machine.execLdxAbsy hhll s
  | .cpyImm nn => Sys2Proof.Machine.execCpyImm nn s
  | .cmpIndx zz => Sys2Proof.Machine.execCmpIndx zz s
  | .cpyZp zz => Sys2Proof.Machine.execCpyZp zz s
  | .cmpZp zz => Sys2Proof.Machine.execCmpZp zz s
  | .decZp zz => Sys2Proof.Machine.execDecZp zz s
  | .iny => Sys2Proof.Machine.execIny s
  | .cmpImm nn => Sys2Proof.Machine.execCmpImm nn s
  | .dex => Sys2Proof.Machine.execDex s
  | .cpyAbs hhll => Sys2Proof.Machine.execCpyAbs hhll s
  | .cmpAbs hhll => Sys2Proof.Machine.execCmpAbs hhll s
  | .decAbs hhll => Sys2Proof.Machine.execDecAbs hhll s
  | .bne dd => Sys2Proof.Machine.execBne dd s
  | .cmpIndy zz => Sys2Proof.Machine.execCmpIndy zz s
  | .cmpZpx zz => Sys2Proof.Machine.execCmpZpx zz s
  | .decZpx zz => Sys2Proof.Machine.execDecZpx zz s
  | .cld => Sys2Proof.Machine.execCld s
  | .cmpAbsy hhll => Sys2Proof.Machine.execCmpAbsy hhll s
  | .cmpAbsx hhll => Sys2Proof.Machine.execCmpAbsx hhll s
  | .decAbsx hhll => Sys2Proof.Machine.execDecAbsx hhll s
  | .cpxImm nn => Sys2Proof.Machine.execCpxImm nn s
  | .sbcIndx zz => Sys2Proof.Machine.execSbcIndx zz s
  | .cpxZp zz => Sys2Proof.Machine.execCpxZp zz s
  | .sbcZp zz => Sys2Proof.Machine.execSbcZp zz s
  | .incZp zz => Sys2Proof.Machine.execIncZp zz s
  | .inx => Sys2Proof.Machine.execInx s
  | .sbcImm nn => Sys2Proof.Machine.execSbcImm nn s
  | .nop => Sys2Proof.Machine.execNop s
  | .cpxAbs hhll => Sys2Proof.Machine.execCpxAbs hhll s
  | .sbcAbs hhll => Sys2Proof.Machine.execSbcAbs hhll s
  | .incAbs hhll => Sys2Proof.Machine.execIncAbs hhll s
  | .beq dd => Sys2Proof.Machine.execBeq dd s
  | .sbcIndy zz => Sys2Proof.Machine.execSbcIndy zz s
  | .sbcZpx zz => Sys2Proof.Machine.execSbcZpx zz s
  | .incZpx zz => Sys2Proof.Machine.execIncZpx zz s
  | .sed => Sys2Proof.Machine.execSed s
  | .sbcAbsy hhll => Sys2Proof.Machine.execSbcAbsy hhll s
  | .sbcAbsx hhll => Sys2Proof.Machine.execSbcAbsx hhll s
  | .incAbsx hhll => Sys2Proof.Machine.execIncAbsx hhll s
  | .unassigned op => Sys2Proof.Machine.execUnassigned op s

end Sys2Proof.Machine
end

