-- ==== Sys2Proof/WellFormed.lean ====
section
/-! DEFINITION. Which instructions are well formed. Every operand of an assigned instruction may hold any value of its
width (`30_encoding.md` R63), so the one check is that an unassigned instruction carries an unassigned byte. -/

namespace Sys2Proof

/-- The 105 unassigned opcode bytes, as R66 lists them. -/
def unassignedBytes : List Nat :=
  [0x02, 0x03, 0x04, 0x07, 0x0B, 0x0C, 0x0F, 0x12, 0x13, 0x14, 0x17, 0x1A, 0x1B, 0x1C, 0x1F] ++
  [0x22, 0x23, 0x27, 0x2B, 0x2F, 0x32, 0x33, 0x34, 0x37, 0x3A, 0x3B, 0x3C, 0x3F, 0x42, 0x43] ++
  [0x44, 0x47, 0x4B, 0x4F, 0x52, 0x53, 0x54, 0x57, 0x5A, 0x5B, 0x5C, 0x5F, 0x62, 0x63, 0x64] ++
  [0x67, 0x6B, 0x6F, 0x72, 0x73, 0x74, 0x77, 0x7A, 0x7B, 0x7C, 0x7F, 0x80, 0x82, 0x83, 0x87] ++
  [0x89, 0x8B, 0x8F, 0x92, 0x93, 0x97, 0x9B, 0x9C, 0x9E, 0x9F, 0xA3, 0xA7, 0xAB, 0xAF, 0xB2] ++
  [0xB3, 0xB7, 0xBB, 0xBF, 0xC2, 0xC3, 0xC7, 0xCB, 0xCF, 0xD2, 0xD3, 0xD4, 0xD7, 0xDA, 0xDB] ++
  [0xDC, 0xDF, 0xE2, 0xE3, 0xE7, 0xEB, 0xEF, 0xF2, 0xF3, 0xF4, 0xF7, 0xFA, 0xFB, 0xFC, 0xFF]

/-- The byte is one of R66's list. -/
def isUnassigned (op : Byte) : Bool := unassignedBytes.contains op.toNat

/-- The instruction stands for words of the machine (R62, R66). -/
def Instr.wellFormed : Instr → Bool
  | .brk => true
  | .oraIndx _ => true
  | .oraZp _ => true
  | .aslZp _ => true
  | .php => true
  | .oraImm _ => true
  | .aslAcc => true
  | .oraAbs _ => true
  | .aslAbs _ => true
  | .bpl _ => true
  | .oraIndy _ => true
  | .oraZpx _ => true
  | .aslZpx _ => true
  | .clc => true
  | .oraAbsy _ => true
  | .oraAbsx _ => true
  | .aslAbsx _ => true
  | .jsr _ => true
  | .andIndx _ => true
  | .bitZp _ => true
  | .andZp _ => true
  | .rolZp _ => true
  | .plp => true
  | .andImm _ => true
  | .rolAcc => true
  | .bitAbs _ => true
  | .andAbs _ => true
  | .rolAbs _ => true
  | .bmi _ => true
  | .andIndy _ => true
  | .andZpx _ => true
  | .rolZpx _ => true
  | .sec => true
  | .andAbsy _ => true
  | .andAbsx _ => true
  | .rolAbsx _ => true
  | .rti => true
  | .eorIndx _ => true
  | .eorZp _ => true
  | .lsrZp _ => true
  | .pha => true
  | .eorImm _ => true
  | .lsrAcc => true
  | .jmpAbs _ => true
  | .eorAbs _ => true
  | .lsrAbs _ => true
  | .bvc _ => true
  | .eorIndy _ => true
  | .eorZpx _ => true
  | .lsrZpx _ => true
  | .cli => true
  | .eorAbsy _ => true
  | .eorAbsx _ => true
  | .lsrAbsx _ => true
  | .rts => true
  | .adcIndx _ => true
  | .adcZp _ => true
  | .rorZp _ => true
  | .pla => true
  | .adcImm _ => true
  | .rorAcc => true
  | .jmpInd _ => true
  | .adcAbs _ => true
  | .rorAbs _ => true
  | .bvs _ => true
  | .adcIndy _ => true
  | .adcZpx _ => true
  | .rorZpx _ => true
  | .sei => true
  | .adcAbsy _ => true
  | .adcAbsx _ => true
  | .rorAbsx _ => true
  | .staIndx _ => true
  | .styZp _ => true
  | .staZp _ => true
  | .stxZp _ => true
  | .dey => true
  | .txa => true
  | .styAbs _ => true
  | .staAbs _ => true
  | .stxAbs _ => true
  | .bcc _ => true
  | .staIndy _ => true
  | .styZpx _ => true
  | .staZpx _ => true
  | .stxZpy _ => true
  | .tya => true
  | .staAbsy _ => true
  | .txs => true
  | .staAbsx _ => true
  | .ldyImm _ => true
  | .ldaIndx _ => true
  | .ldxImm _ => true
  | .ldyZp _ => true
  | .ldaZp _ => true
  | .ldxZp _ => true
  | .tay => true
  | .ldaImm _ => true
  | .tax => true
  | .ldyAbs _ => true
  | .ldaAbs _ => true
  | .ldxAbs _ => true
  | .bcs _ => true
  | .ldaIndy _ => true
  | .ldyZpx _ => true
  | .ldaZpx _ => true
  | .ldxZpy _ => true
  | .clv => true
  | .ldaAbsy _ => true
  | .tsx => true
  | .ldyAbsx _ => true
  | .ldaAbsx _ => true
  | .ldxAbsy _ => true
  | .cpyImm _ => true
  | .cmpIndx _ => true
  | .cpyZp _ => true
  | .cmpZp _ => true
  | .decZp _ => true
  | .iny => true
  | .cmpImm _ => true
  | .dex => true
  | .cpyAbs _ => true
  | .cmpAbs _ => true
  | .decAbs _ => true
  | .bne _ => true
  | .cmpIndy _ => true
  | .cmpZpx _ => true
  | .decZpx _ => true
  | .cld => true
  | .cmpAbsy _ => true
  | .cmpAbsx _ => true
  | .decAbsx _ => true
  | .cpxImm _ => true
  | .sbcIndx _ => true
  | .cpxZp _ => true
  | .sbcZp _ => true
  | .incZp _ => true
  | .inx => true
  | .sbcImm _ => true
  | .nop => true
  | .cpxAbs _ => true
  | .sbcAbs _ => true
  | .incAbs _ => true
  | .beq _ => true
  | .sbcIndy _ => true
  | .sbcZpx _ => true
  | .incZpx _ => true
  | .sed => true
  | .sbcAbsy _ => true
  | .sbcAbsx _ => true
  | .incAbsx _ => true
  | .unassigned op => isUnassigned op

end Sys2Proof
end

