-- ==== Sys2Proof/Decode.lean ====
section
/-! DEFINITION. The decoder, total on any bytes, and after it the encoder, both from the opcode map of `30_encoding.md`
R65, R66 and the operand fields of R63. -/

namespace Sys2Proof

/-- What an opcode byte selects: an operation and the operand bytes its mode has (R62, R64). -/
inductive OpcodeEntry where
  /-- No operand byte: the whole instruction. -/
  | plain (i : Instr)
  /-- One operand byte (`nn`, `zz` or `dd`). -/
  | byte (f : Byte → Instr)
  /-- Two operand bytes, the word `hh : ll`, low byte first. -/
  | word (f : Addr → Instr)

/-- The static lookup table indexed by opcode byte (R64, R65, R97): total over the 256 values, with the 105 bytes of R66
unassigned. The bytes other than 0x69 and 0xA9 are general knowledge in the spec itself (UNVERIFIED, log entry 2). -/
def opcodeEntry (op : Byte) : OpcodeEntry :=
  match op.toNat with
  | 0x00 => .plain .brk
  | 0x01 => .byte .oraIndx
  | 0x05 => .byte .oraZp
  | 0x06 => .byte .aslZp
  | 0x08 => .plain .php
  | 0x09 => .byte .oraImm
  | 0x0A => .plain .aslAcc
  | 0x0D => .word .oraAbs
  | 0x0E => .word .aslAbs
  | 0x10 => .byte .bpl
  | 0x11 => .byte .oraIndy
  | 0x15 => .byte .oraZpx
  | 0x16 => .byte .aslZpx
  | 0x18 => .plain .clc
  | 0x19 => .word .oraAbsy
  | 0x1D => .word .oraAbsx
  | 0x1E => .word .aslAbsx
  | 0x20 => .word .jsr
  | 0x21 => .byte .andIndx
  | 0x24 => .byte .bitZp
  | 0x25 => .byte .andZp
  | 0x26 => .byte .rolZp
  | 0x28 => .plain .plp
  | 0x29 => .byte .andImm
  | 0x2A => .plain .rolAcc
  | 0x2C => .word .bitAbs
  | 0x2D => .word .andAbs
  | 0x2E => .word .rolAbs
  | 0x30 => .byte .bmi
  | 0x31 => .byte .andIndy
  | 0x35 => .byte .andZpx
  | 0x36 => .byte .rolZpx
  | 0x38 => .plain .sec
  | 0x39 => .word .andAbsy
  | 0x3D => .word .andAbsx
  | 0x3E => .word .rolAbsx
  | 0x40 => .plain .rti
  | 0x41 => .byte .eorIndx
  | 0x45 => .byte .eorZp
  | 0x46 => .byte .lsrZp
  | 0x48 => .plain .pha
  | 0x49 => .byte .eorImm
  | 0x4A => .plain .lsrAcc
  | 0x4C => .word .jmpAbs
  | 0x4D => .word .eorAbs
  | 0x4E => .word .lsrAbs
  | 0x50 => .byte .bvc
  | 0x51 => .byte .eorIndy
  | 0x55 => .byte .eorZpx
  | 0x56 => .byte .lsrZpx
  | 0x58 => .plain .cli
  | 0x59 => .word .eorAbsy
  | 0x5D => .word .eorAbsx
  | 0x5E => .word .lsrAbsx
  | 0x60 => .plain .rts
  | 0x61 => .byte .adcIndx
  | 0x65 => .byte .adcZp
  | 0x66 => .byte .rorZp
  | 0x68 => .plain .pla
  | 0x69 => .byte .adcImm
  | 0x6A => .plain .rorAcc
  | 0x6C => .word .jmpInd
  | 0x6D => .word .adcAbs
  | 0x6E => .word .rorAbs
  | 0x70 => .byte .bvs
  | 0x71 => .byte .adcIndy
  | 0x75 => .byte .adcZpx
  | 0x76 => .byte .rorZpx
  | 0x78 => .plain .sei
  | 0x79 => .word .adcAbsy
  | 0x7D => .word .adcAbsx
  | 0x7E => .word .rorAbsx
  | 0x81 => .byte .staIndx
  | 0x84 => .byte .styZp
  | 0x85 => .byte .staZp
  | 0x86 => .byte .stxZp
  | 0x88 => .plain .dey
  | 0x8A => .plain .txa
  | 0x8C => .word .styAbs
  | 0x8D => .word .staAbs
  | 0x8E => .word .stxAbs
  | 0x90 => .byte .bcc
  | 0x91 => .byte .staIndy
  | 0x94 => .byte .styZpx
  | 0x95 => .byte .staZpx
  | 0x96 => .byte .stxZpy
  | 0x98 => .plain .tya
  | 0x99 => .word .staAbsy
  | 0x9A => .plain .txs
  | 0x9D => .word .staAbsx
  | 0xA0 => .byte .ldyImm
  | 0xA1 => .byte .ldaIndx
  | 0xA2 => .byte .ldxImm
  | 0xA4 => .byte .ldyZp
  | 0xA5 => .byte .ldaZp
  | 0xA6 => .byte .ldxZp
  | 0xA8 => .plain .tay
  | 0xA9 => .byte .ldaImm
  | 0xAA => .plain .tax
  | 0xAC => .word .ldyAbs
  | 0xAD => .word .ldaAbs
  | 0xAE => .word .ldxAbs
  | 0xB0 => .byte .bcs
  | 0xB1 => .byte .ldaIndy
  | 0xB4 => .byte .ldyZpx
  | 0xB5 => .byte .ldaZpx
  | 0xB6 => .byte .ldxZpy
  | 0xB8 => .plain .clv
  | 0xB9 => .word .ldaAbsy
  | 0xBA => .plain .tsx
  | 0xBC => .word .ldyAbsx
  | 0xBD => .word .ldaAbsx
  | 0xBE => .word .ldxAbsy
  | 0xC0 => .byte .cpyImm
  | 0xC1 => .byte .cmpIndx
  | 0xC4 => .byte .cpyZp
  | 0xC5 => .byte .cmpZp
  | 0xC6 => .byte .decZp
  | 0xC8 => .plain .iny
  | 0xC9 => .byte .cmpImm
  | 0xCA => .plain .dex
  | 0xCC => .word .cpyAbs
  | 0xCD => .word .cmpAbs
  | 0xCE => .word .decAbs
  | 0xD0 => .byte .bne
  | 0xD1 => .byte .cmpIndy
  | 0xD5 => .byte .cmpZpx
  | 0xD6 => .byte .decZpx
  | 0xD8 => .plain .cld
  | 0xD9 => .word .cmpAbsy
  | 0xDD => .word .cmpAbsx
  | 0xDE => .word .decAbsx
  | 0xE0 => .byte .cpxImm
  | 0xE1 => .byte .sbcIndx
  | 0xE4 => .byte .cpxZp
  | 0xE5 => .byte .sbcZp
  | 0xE6 => .byte .incZp
  | 0xE8 => .plain .inx
  | 0xE9 => .byte .sbcImm
  | 0xEA => .plain .nop
  | 0xEC => .word .cpxAbs
  | 0xED => .word .sbcAbs
  | 0xEE => .word .incAbs
  | 0xF0 => .byte .beq
  | 0xF1 => .byte .sbcIndy
  | 0xF5 => .byte .sbcZpx
  | 0xF6 => .byte .incZpx
  | 0xF8 => .plain .sed
  | 0xF9 => .word .sbcAbsy
  | 0xFD => .word .sbcAbsx
  | 0xFE => .word .incAbsx
  | _ => .plain (.unassigned op)

/-- The number of operand bytes that follow an opcode byte: 0, 1 or 2 (R61, R62). -/
def operandCount (op : Byte) : Nat :=
  match opcodeEntry op with
  | .plain _ => 0
  | .byte _ => 1
  | .word _ => 2

/-- Why a list of bytes does not start with a whole instruction. -/
inductive DecodeError where
  /-- There is no byte. -/
  | noOpcode
  /-- The bytes end before the operand bytes of the opcode do. -/
  | operandMissing (op : Byte)
  deriving DecidableEq, Repr

/-- The operand bytes of an opcode byte's entry, and the bytes after them (R61 to R63). -/
def decodeOperands (op : Byte) : OpcodeEntry → List Byte → Except DecodeError (Instr × List Byte)
  | .plain i, rest => .ok (i, rest)
  | .byte f, b :: rest => .ok (f b, rest)
  | .byte _, [] => .error (.operandMissing op)
  | .word f, lo :: hi :: rest => .ok (f (Machine.wordOf hi lo), rest)
  | .word _, _ => .error (.operandMissing op)

/-- The instruction at the start of a list of bytes in address order, and the bytes after it (R61 to R64, R97). -/
def decode : List Byte → Except DecodeError (Instr × List Byte)
  | [] => .error .noOpcode
  | op :: rest => decodeOperands op (opcodeEntry op) rest

/-- `Decode(op)`: the mnemonic and the format of the row whose `match` is the byte (R97). -/
def decodeOpcode (op : Byte) : Mnemonic × Format :=
  match opcodeEntry op with
  | .plain i => (i.mnemonic, i.format)
  | .byte f => ((f 0#8).mnemonic, (f 0#8).format)
  | .word f => ((f 0#16).mnemonic, (f 0#16).format)

/-- The opcode byte of an instruction, from the map of R65. -/
def Instr.opcode : Instr → Byte
  | .brk => 0x00#8
  | .oraIndx _ => 0x01#8
  | .oraZp _ => 0x05#8
  | .aslZp _ => 0x06#8
  | .php => 0x08#8
  | .oraImm _ => 0x09#8
  | .aslAcc => 0x0A#8
  | .oraAbs _ => 0x0D#8
  | .aslAbs _ => 0x0E#8
  | .bpl _ => 0x10#8
  | .oraIndy _ => 0x11#8
  | .oraZpx _ => 0x15#8
  | .aslZpx _ => 0x16#8
  | .clc => 0x18#8
  | .oraAbsy _ => 0x19#8
  | .oraAbsx _ => 0x1D#8
  | .aslAbsx _ => 0x1E#8
  | .jsr _ => 0x20#8
  | .andIndx _ => 0x21#8
  | .bitZp _ => 0x24#8
  | .andZp _ => 0x25#8
  | .rolZp _ => 0x26#8
  | .plp => 0x28#8
  | .andImm _ => 0x29#8
  | .rolAcc => 0x2A#8
  | .bitAbs _ => 0x2C#8
  | .andAbs _ => 0x2D#8
  | .rolAbs _ => 0x2E#8
  | .bmi _ => 0x30#8
  | .andIndy _ => 0x31#8
  | .andZpx _ => 0x35#8
  | .rolZpx _ => 0x36#8
  | .sec => 0x38#8
  | .andAbsy _ => 0x39#8
  | .andAbsx _ => 0x3D#8
  | .rolAbsx _ => 0x3E#8
  | .rti => 0x40#8
  | .eorIndx _ => 0x41#8
  | .eorZp _ => 0x45#8
  | .lsrZp _ => 0x46#8
  | .pha => 0x48#8
  | .eorImm _ => 0x49#8
  | .lsrAcc => 0x4A#8
  | .jmpAbs _ => 0x4C#8
  | .eorAbs _ => 0x4D#8
  | .lsrAbs _ => 0x4E#8
  | .bvc _ => 0x50#8
  | .eorIndy _ => 0x51#8
  | .eorZpx _ => 0x55#8
  | .lsrZpx _ => 0x56#8
  | .cli => 0x58#8
  | .eorAbsy _ => 0x59#8
  | .eorAbsx _ => 0x5D#8
  | .lsrAbsx _ => 0x5E#8
  | .rts => 0x60#8
  | .adcIndx _ => 0x61#8
  | .adcZp _ => 0x65#8
  | .rorZp _ => 0x66#8
  | .pla => 0x68#8
  | .adcImm _ => 0x69#8
  | .rorAcc => 0x6A#8
  | .jmpInd _ => 0x6C#8
  | .adcAbs _ => 0x6D#8
  | .rorAbs _ => 0x6E#8
  | .bvs _ => 0x70#8
  | .adcIndy _ => 0x71#8
  | .adcZpx _ => 0x75#8
  | .rorZpx _ => 0x76#8
  | .sei => 0x78#8
  | .adcAbsy _ => 0x79#8
  | .adcAbsx _ => 0x7D#8
  | .rorAbsx _ => 0x7E#8
  | .staIndx _ => 0x81#8
  | .styZp _ => 0x84#8
  | .staZp _ => 0x85#8
  | .stxZp _ => 0x86#8
  | .dey => 0x88#8
  | .txa => 0x8A#8
  | .styAbs _ => 0x8C#8
  | .staAbs _ => 0x8D#8
  | .stxAbs _ => 0x8E#8
  | .bcc _ => 0x90#8
  | .staIndy _ => 0x91#8
  | .styZpx _ => 0x94#8
  | .staZpx _ => 0x95#8
  | .stxZpy _ => 0x96#8
  | .tya => 0x98#8
  | .staAbsy _ => 0x99#8
  | .txs => 0x9A#8
  | .staAbsx _ => 0x9D#8
  | .ldyImm _ => 0xA0#8
  | .ldaIndx _ => 0xA1#8
  | .ldxImm _ => 0xA2#8
  | .ldyZp _ => 0xA4#8
  | .ldaZp _ => 0xA5#8
  | .ldxZp _ => 0xA6#8
  | .tay => 0xA8#8
  | .ldaImm _ => 0xA9#8
  | .tax => 0xAA#8
  | .ldyAbs _ => 0xAC#8
  | .ldaAbs _ => 0xAD#8
  | .ldxAbs _ => 0xAE#8
  | .bcs _ => 0xB0#8
  | .ldaIndy _ => 0xB1#8
  | .ldyZpx _ => 0xB4#8
  | .ldaZpx _ => 0xB5#8
  | .ldxZpy _ => 0xB6#8
  | .clv => 0xB8#8
  | .ldaAbsy _ => 0xB9#8
  | .tsx => 0xBA#8
  | .ldyAbsx _ => 0xBC#8
  | .ldaAbsx _ => 0xBD#8
  | .ldxAbsy _ => 0xBE#8
  | .cpyImm _ => 0xC0#8
  | .cmpIndx _ => 0xC1#8
  | .cpyZp _ => 0xC4#8
  | .cmpZp _ => 0xC5#8
  | .decZp _ => 0xC6#8
  | .iny => 0xC8#8
  | .cmpImm _ => 0xC9#8
  | .dex => 0xCA#8
  | .cpyAbs _ => 0xCC#8
  | .cmpAbs _ => 0xCD#8
  | .decAbs _ => 0xCE#8
  | .bne _ => 0xD0#8
  | .cmpIndy _ => 0xD1#8
  | .cmpZpx _ => 0xD5#8
  | .decZpx _ => 0xD6#8
  | .cld => 0xD8#8
  | .cmpAbsy _ => 0xD9#8
  | .cmpAbsx _ => 0xDD#8
  | .decAbsx _ => 0xDE#8
  | .cpxImm _ => 0xE0#8
  | .sbcIndx _ => 0xE1#8
  | .cpxZp _ => 0xE4#8
  | .sbcZp _ => 0xE5#8
  | .incZp _ => 0xE6#8
  | .inx => 0xE8#8
  | .sbcImm _ => 0xE9#8
  | .nop => 0xEA#8
  | .cpxAbs _ => 0xEC#8
  | .sbcAbs _ => 0xED#8
  | .incAbs _ => 0xEE#8
  | .beq _ => 0xF0#8
  | .sbcIndy _ => 0xF1#8
  | .sbcZpx _ => 0xF5#8
  | .incZpx _ => 0xF6#8
  | .sed => 0xF8#8
  | .sbcAbsy _ => 0xF9#8
  | .sbcAbsx _ => 0xFD#8
  | .incAbsx _ => 0xFE#8
  | .unassigned op => op

/-- A 16-bit operand as it lies in memory: the low byte first (R47, R63). -/
def wordBytes (w : Addr) : List Byte := [Machine.loByte w, Machine.hiByte w]

/-- The operand bytes of an instruction, in fetch order (R61, R63). -/
def Instr.operandBytes : Instr → List Byte
  | .brk => []
  | .oraIndx zz => [zz]
  | .oraZp zz => [zz]
  | .aslZp zz => [zz]
  | .php => []
  | .oraImm nn => [nn]
  | .aslAcc => []
  | .oraAbs hhll => wordBytes hhll
  | .aslAbs hhll => wordBytes hhll
  | .bpl dd => [dd]
  | .oraIndy zz => [zz]
  | .oraZpx zz => [zz]
  | .aslZpx zz => [zz]
  | .clc => []
  | .oraAbsy hhll => wordBytes hhll
  | .oraAbsx hhll => wordBytes hhll
  | .aslAbsx hhll => wordBytes hhll
  | .jsr hhll => wordBytes hhll
  | .andIndx zz => [zz]
  | .bitZp zz => [zz]
  | .andZp zz => [zz]
  | .rolZp zz => [zz]
  | .plp => []
  | .andImm nn => [nn]
  | .rolAcc => []
  | .bitAbs hhll => wordBytes hhll
  | .andAbs hhll => wordBytes hhll
  | .rolAbs hhll => wordBytes hhll
  | .bmi dd => [dd]
  | .andIndy zz => [zz]
  | .andZpx zz => [zz]
  | .rolZpx zz => [zz]
  | .sec => []
  | .andAbsy hhll => wordBytes hhll
  | .andAbsx hhll => wordBytes hhll
  | .rolAbsx hhll => wordBytes hhll
  | .rti => []
  | .eorIndx zz => [zz]
  | .eorZp zz => [zz]
  | .lsrZp zz => [zz]
  | .pha => []
  | .eorImm nn => [nn]
  | .lsrAcc => []
  | .jmpAbs hhll => wordBytes hhll
  | .eorAbs hhll => wordBytes hhll
  | .lsrAbs hhll => wordBytes hhll
  | .bvc dd => [dd]
  | .eorIndy zz => [zz]
  | .eorZpx zz => [zz]
  | .lsrZpx zz => [zz]
  | .cli => []
  | .eorAbsy hhll => wordBytes hhll
  | .eorAbsx hhll => wordBytes hhll
  | .lsrAbsx hhll => wordBytes hhll
  | .rts => []
  | .adcIndx zz => [zz]
  | .adcZp zz => [zz]
  | .rorZp zz => [zz]
  | .pla => []
  | .adcImm nn => [nn]
  | .rorAcc => []
  | .jmpInd hhll => wordBytes hhll
  | .adcAbs hhll => wordBytes hhll
  | .rorAbs hhll => wordBytes hhll
  | .bvs dd => [dd]
  | .adcIndy zz => [zz]
  | .adcZpx zz => [zz]
  | .rorZpx zz => [zz]
  | .sei => []
  | .adcAbsy hhll => wordBytes hhll
  | .adcAbsx hhll => wordBytes hhll
  | .rorAbsx hhll => wordBytes hhll
  | .staIndx zz => [zz]
  | .styZp zz => [zz]
  | .staZp zz => [zz]
  | .stxZp zz => [zz]
  | .dey => []
  | .txa => []
  | .styAbs hhll => wordBytes hhll
  | .staAbs hhll => wordBytes hhll
  | .stxAbs hhll => wordBytes hhll
  | .bcc dd => [dd]
  | .staIndy zz => [zz]
  | .styZpx zz => [zz]
  | .staZpx zz => [zz]
  | .stxZpy zz => [zz]
  | .tya => []
  | .staAbsy hhll => wordBytes hhll
  | .txs => []
  | .staAbsx hhll => wordBytes hhll
  | .ldyImm nn => [nn]
  | .ldaIndx zz => [zz]
  | .ldxImm nn => [nn]
  | .ldyZp zz => [zz]
  | .ldaZp zz => [zz]
  | .ldxZp zz => [zz]
  | .tay => []
  | .ldaImm nn => [nn]
  | .tax => []
  | .ldyAbs hhll => wordBytes hhll
  | .ldaAbs hhll => wordBytes hhll
  | .ldxAbs hhll => wordBytes hhll
  | .bcs dd => [dd]
  | .ldaIndy zz => [zz]
  | .ldyZpx zz => [zz]
  | .ldaZpx zz => [zz]
  | .ldxZpy zz => [zz]
  | .clv => []
  | .ldaAbsy hhll => wordBytes hhll
  | .tsx => []
  | .ldyAbsx hhll => wordBytes hhll
  | .ldaAbsx hhll => wordBytes hhll
  | .ldxAbsy hhll => wordBytes hhll
  | .cpyImm nn => [nn]
  | .cmpIndx zz => [zz]
  | .cpyZp zz => [zz]
  | .cmpZp zz => [zz]
  | .decZp zz => [zz]
  | .iny => []
  | .cmpImm nn => [nn]
  | .dex => []
  | .cpyAbs hhll => wordBytes hhll
  | .cmpAbs hhll => wordBytes hhll
  | .decAbs hhll => wordBytes hhll
  | .bne dd => [dd]
  | .cmpIndy zz => [zz]
  | .cmpZpx zz => [zz]
  | .decZpx zz => [zz]
  | .cld => []
  | .cmpAbsy hhll => wordBytes hhll
  | .cmpAbsx hhll => wordBytes hhll
  | .decAbsx hhll => wordBytes hhll
  | .cpxImm nn => [nn]
  | .sbcIndx zz => [zz]
  | .cpxZp zz => [zz]
  | .sbcZp zz => [zz]
  | .incZp zz => [zz]
  | .inx => []
  | .sbcImm nn => [nn]
  | .nop => []
  | .cpxAbs hhll => wordBytes hhll
  | .sbcAbs hhll => wordBytes hhll
  | .incAbs hhll => wordBytes hhll
  | .beq dd => [dd]
  | .sbcIndy zz => [zz]
  | .sbcZpx zz => [zz]
  | .incZpx zz => [zz]
  | .sed => []
  | .sbcAbsy hhll => wordBytes hhll
  | .sbcAbsx hhll => wordBytes hhll
  | .incAbsx hhll => wordBytes hhll
  | .unassigned _ => []

/-- The bytes of an instruction in address order (R61). -/
def encode (i : Instr) : List Byte := i.opcode :: i.operandBytes

/-- The three bytes of a table word, bit 0 the least significant bit of the first byte, the bits from `nbits` up zero. -/
def tableWordBytes (nbits w : Nat) : List Byte :=
  let v := w % 2 ^ nbits
  [BitVec.ofNat 8 v, BitVec.ofNat 8 (v / 256), BitVec.ofNat 8 (v / 65536)]

/-- The instruction the decoder reads from a table word. -/
def decodeTableWord (nbits w : Nat) : Option Instr :=
  match decode (tableWordBytes nbits w) with
  | .ok (i, _) => some i
  | .error _ => none

end Sys2Proof
end

