-- ==== Sys2Proof/Machine/Fetch.lean ====
section
/-! DEFINITION. The fetch of one instruction at `pc` (`40_engine.md` R76, R77, R94), and the host's placing of bytes in RAM
and in the PRG image (`20_memory.md` R59). -/

namespace Sys2Proof.Machine

/-- Fetch the opcode byte, then the operand bytes its mode has: the instruction, and the state with `pc` at the byte after
the instruction's last byte (R76). An unassigned byte has no operand byte (R95). -/
def State.fetchInstr (s : State) : Instr × State :=
  let (op, s) := s.fetch8
  match opcodeEntry op with
  | .plain i => (i, s)
  | .byte f =>
    let (b, s) := s.fetch8
    (f b, s)
  | .word f =>
    let (w, s) := s.fetch16
    (f w, s)

/-- The host sets the byte a bus read of the address would return: a RAM byte, or a byte of the PRG image. No bus access is
made and no event emitted (R59). -/
def State.seed (s : State) (addr : Addr) (v : Byte) : State :=
  match s.bus with
  | .flat => { s with ram := s.ram.write addr.toNat v }
  | .mapped m =>
    if addr < Config.busSplit then { s with ram := s.ram.write addr.toNat v }
    else { s with prg := s.prg.write (m.prgIndex (prgOffset addr)) v }

/-- The host sets the bytes at successive addresses, modulo 65536 (R59). -/
def State.seedBytes : State → Addr → List Byte → State
  | s, _, [] => s
  | s, addr, b :: bs => State.seedBytes (s.seed addr b) (addr + 1#16) bs

/-- The bytes bus reads of successive addresses return. -/
def State.peekBytes (s : State) : Addr → Nat → List Byte
  | _, 0 => []
  | addr, n + 1 => s.peek addr :: State.peekBytes s (addr + 1#16) n

end Sys2Proof.Machine
end

