-- ==== Sys2Proof/Machine/Step.lean ====
section
/-! DEFINITION. `tick()`, one whole instruction (`40_engine.md` R77, R98): fetch, decode, and `exec`, which resolves the
mode, executes and returns the cycle count. Host actions never fall inside it (R98, R201). -/

namespace Sys2Proof.Machine

/-- One tick (R77). -/
def step (s : State) : Host.Outcome State Fault Refusal :=
  let (i, s) := s.beginTick.fetchInstr
  exec i s

/-- The state with the instruction of a table word placed where the next tick fetches: three bytes at `pc`, in RAM or in the
PRG image (R59; log entry 5). -/
def State.withFetchWord (s : State) (nbits w : Nat) : State := s.seedBytes s.pc (tableWordBytes nbits w)

end Sys2Proof.Machine
end

