-- ==== Sys2Proof/Machine/HostActions.lean ====
section
/-! DEFINITION. What the host does to the machine between ticks (`10_state.md` R30 to R33, `20_memory.md` R42, R44,
`70_reset_and_hazards.md` R189, R191, R201). Seeding is `State.seed`, reset is `State.resetToPowerUp`, a tick is `step`. -/

namespace Sys2Proof.Machine

/-- Why the host's request is turned down. -/
inductive HostRefusal where
  /-- The mapper id is not NROM's: "fatal for the session", no bus is built (R42). -/
  | unsupportedMapper (id : Nat)
  /-- The PRG image is not one or two banks long (R44, decision D13). -/
  | unsupportedBankCount (bytes : Nat)
  /-- The `CPUState` has status bit 5 clear (R32, decision D10). -/
  | statusBit5Clear
  deriving DecidableEq, Repr

/-- The bank count of a PRG image of a length in bytes: 1 or 2, else none (R44). -/
def prgBanksOf (bytes : Nat) : Option PrgBanks :=
  if bytes = Config.prgBankSize then some .one
  else if bytes = 2 * Config.prgBankSize then some .two
  else none

/-- `snapshot()`: the six registers, copied (R31). -/
def State.snapshot (s : State) : CPUState :=
  { pc := s.pc, sp := s.sp, a := s.a, x := s.x, y := s.y, status := s.status }

/-- Construction from a `CPUState` on a bus that stands: the six registers are set, memory is left as it is, no bus access
is made, and status bit 5 clear is refused (R32, R189). -/
def State.loadCPU (s : State) (c : CPUState) : Except HostRefusal State :=
  if flagOf c.status .u then
    .ok { s with pc := c.pc, sp := c.sp, a := c.a, x := c.x, y := c.y, status := c.status, cycles := none, accesses := [] }
  else .error .statusBit5Clear

/-- A CPU wired to a bus and reset, on a PRG image and a `RAM0` (R191). Registers hold no value before the reset, and the
reset writes every one of them (R186, R188), so the values this record gives them are never seen. -/
def State.powerUp (bus : BusInstance) (prg ram0 : Memory) : State :=
  State.resetToPowerUp
    { pc := 0#16, sp := 0#8, a := 0#8, x := 0#8, y := 0#8, status := 0#8, bus := bus, ram := ram0, prg := prg,
      events := [], cycles := none, accesses := [] }

/-- Construct the bus for a cartridge, its mapper selected by id, and power the CPU up on it (R42, R44, R190, R191). -/
def State.boot (mapperId : Nat) (prgBytes : List Byte) (ram0 : Memory) : Except HostRefusal State :=
  if mapperId = Config.nromMapperId then
    match prgBanksOf prgBytes.length with
    | some banks => .ok (State.powerUp (.mapped (.nrom banks)) (Memory.ofBytes prgBytes) ram0)
    | none => .error (.unsupportedBankCount prgBytes.length)
  else .error (.unsupportedMapper mapperId)

/-- One upper-case hexadecimal digit. -/
def hexDigit (n : Nat) : Char := ("0123456789ABCDEF".toList).getD n '0'

/-- Two hexadecimal digits. -/
def hexByte (b : Byte) : List Char := [hexDigit (b.toNat / 16), hexDigit (b.toNat % 16)]

/-- The diagnostic rendering `PC: hhhh S: hh A: hh X: hh Y: hh P: hh` (R33, decision D17; informative). -/
def CPUState.render (c : CPUState) : String :=
  String.ofList
    ("PC: ".toList ++ hexByte (hiByte c.pc) ++ hexByte (loByte c.pc) ++ " S: ".toList ++ hexByte c.sp ++ " A: ".toList ++
      hexByte c.a ++ " X: ".toList ++ hexByte c.x ++ " Y: ".toList ++ hexByte c.y ++ " P: ".toList ++ hexByte c.status)

end Sys2Proof.Machine
end

