-- ==== Sys2Proof/Safety.lean ====
section
/-! DEFINITION. What holds of every state of a session, what a tick's bus accesses do, and what a run is (`10_state.md` R17,
`20_memory.md` R40, R45, `70_reset_and_hazards.md` R200). -/

namespace Sys2Proof

open Sys2Proof.Machine

/-- The invariant of the machine: status bit 5 is set (R17), and the RAM and the PRG image are in canonical form within the
sizes the bus gives them (R40, R43, R44, R58). -/
abbrev Inv (s : State) : Prop :=
  flagOf s.status .u = true ∧ s.ram.wf s.bus.ramSize = true ∧ s.prg.wf s.bus.prgSize = true

/-- A bus write of the address reaches RAM: every address on `FlatBus`, those below `BUS_SPLIT` on the NROM bus (R37, R58). -/
def writable (b : BusInstance) (addr : Addr) : Bool :=
  match b with
  | .flat => true
  | .mapped _ => decide (addr < Config.busSplit)

/-- What one access does to the RAM of a bus: a write that reaches RAM changes the byte at its address, and nothing else
does anything (R40, R45, R50). -/
def replayRam (b : BusInstance) (m : Memory) : Access → Memory
  | .read _ _ => m
  | .write addr v => if writable b addr then m.write addr.toNat v else m

/-- The event an access emits: one for a write that does not reach RAM (R45, R50). -/
def eventsOf (b : BusInstance) : Access → List Event
  | .read _ _ => []
  | .write addr v => if writable b addr then [] else [.illegalPrgWrite (prgOffset addr) v]

/-- `t` is `s` after the accesses of `log`, in order, as far as memory and outputs go: the RAM is that of the writes, the
events are those the writes emit, the bus and the PRG image stand, and the record of accesses has grown by `log`. -/
structure FollowsBy (log : List Access) (s t : State) : Prop where
  ram : t.ram = log.foldl (replayRam s.bus) s.ram
  events : t.events = s.events ++ log.flatMap (eventsOf s.bus)
  bus : t.bus = s.bus
  prg : t.prg = s.prg
  accesses : t.accesses = s.accesses ++ log

/-- The run has ended: a tick boundary at which `pc` is the host's end address (R200, decision D16). -/
abbrev atEnd (endAddr : Addr) (s : State) : Prop := s.pc = endAddr

/-- Ticks until the run ends, at most `n` of them: the state at the first tick boundary with `pc = END`, if it is reached
(R200). -/
def runToEnd (endAddr : Addr) : Nat → State → Option State
  | 0, s => if s.pc = endAddr then some s else none
  | n + 1, s =>
    if s.pc = endAddr then some s
    else
      match step s with
      | .next t => runToEnd endAddr n t
      | .fault _ => none
      | .refused _ => none

end Sys2Proof
end

