-- ==== Sys2Proof/Certificates/Slice0/Obligations.lean ====
section
/-! DEFINITION. The statements for the provers, and the words they are written in. A statement about an instruction names it
by its mnemonic, so it holds for every constructor of that mnemonic, and says what each of them does through the mode's own
address, value and accesses below. `pc` is the address after the instruction's last byte when `exec` begins (R76, log entry
22), so a meaning that leaves `pc` alone has moved past its own bytes. -/

namespace Sys2Proof.Claims

open Sys2Proof.Machine

/-- The one operand byte of an instruction that has one (`nn`, `zz` or `dd`, R63). Any other instruction: 0, not used. -/
def byteOperand (i : Instr) : Byte :=
  match i.operandBytes with
  | [b] => b
  | _ => 0#8

/-- The operand word `hh : ll` of an instruction that has one (R63). Any other instruction: 0, not used. -/
def wordOperand (i : Instr) : Addr :=
  match i.operandBytes with
  | [ll, hh] => hh ++ ll
  | _ => 0#16

/-- The two bytes of a pointer at a zero-page address, the second wrapping within page 0 (R89, R90). -/
def zpWord (s : State) (p : Byte) : Addr :=
  s.peek (0x00#8 ++ (p + 1#8)) ++ s.peek (0x00#8 ++ p)

/-- The reads of a pointer at a zero-page address, low byte first (R94). -/
def zpWordReads (s : State) (p : Byte) : List Access :=
  [.read (0x00#8 ++ p) (s.peek (0x00#8 ++ p)), .read (0x00#8 ++ (p + 1#8)) (s.peek (0x00#8 ++ (p + 1#8)))]

/-- The address of the high byte of an indirect jump's target: `ptr[15:8] : ((ptr[7:0] + 1) mod 256)` (R88). -/
def indHigh (ptr : Addr) : Addr := ptr.extractLsb' 8 8 ++ (ptr.extractLsb' 0 8 + 1#8)

/-- The effective address of an instruction's mode, written out from R82 to R90. A mode that yields no address: 0, not
used. -/
def modeAddr (i : Instr) (s : State) : Addr :=
  match i.format with
  | .zp => 0x00#8 ++ byteOperand i
  | .zpx => 0x00#8 ++ (byteOperand i + s.x)
  | .zpy => 0x00#8 ++ (byteOperand i + s.y)
  | .abs => wordOperand i
  | .absx => wordOperand i + s.x.setWidth 16
  | .absy => wordOperand i + s.y.setWidth 16
  | .ind => s.peek (indHigh (wordOperand i)) ++ s.peek (wordOperand i)
  | .indx => zpWord s (byteOperand i + s.x)
  | .indy => zpWord s (byteOperand i) + s.y.setWidth 16
  | _ => 0#16

/-- The pointer reads an instruction's mode makes (R94, item 3). -/
def modeReads (i : Instr) (s : State) : List Access :=
  match i.format with
  | .ind =>
    [.read (wordOperand i) (s.peek (wordOperand i)),
      .read (indHigh (wordOperand i)) (s.peek (indHigh (wordOperand i)))]
  | .indx => zpWordReads s (byteOperand i + s.x)
  | .indy => zpWordReads s (byteOperand i)
  | _ => []

/-- The value `Load` gives: the operand byte itself, the accumulator, or the byte at the effective address (R92). -/
def operandValue (i : Instr) (s : State) : Byte :=
  match i.format with
  | .imm => byteOperand i
  | .acc => s.a
  | _ => s.peek (modeAddr i s)

/-- The reads of `Resolve` and `Load` (R92, R94). -/
def operandReads (i : Instr) (s : State) : List Access :=
  match i.format with
  | .imm => []
  | .acc => []
  | _ => modeReads i s ++ [.read (modeAddr i s) (s.peek (modeAddr i s))]

/-- `s` after an instruction that returns its base cycle count and makes the accesses of `log`, everything else as it was. -/
def after (i : Instr) (s : State) (log : List Access) : State :=
  { s with cycles := some (baseCycles i.opcode), accesses := s.accesses ++ log }

/-- The opcode bytes of a mnemonic are those of the list, each with its format, its length in bytes and its base cycle
count: every instruction of the mnemonic is encoded by one of them, and every one of them decodes to the mnemonic. -/
def HasEncodings (m : Mnemonic) (rows : List (Byte × Format × Nat × Byte)) : Prop :=
  (∀ i : Instr, i.mnemonic = m → (i.opcode, i.format, (encode i).length, baseCycles i.opcode) ∈ rows) ∧
  ∀ r ∈ rows, decodeOpcode r.1 = (m, r.2.1)

/-- The state after the fetch of an instruction of `n` bytes at `pc` begins a tick (R76, R94). -/
def fetched (s : State) (n : Nat) : State :=
  { s with
    pc := s.pc + BitVec.ofNat 16 n
    accesses := (List.range n).map (fun k =>
      .read (s.pc + BitVec.ofNat 16 k) (s.peek (s.pc + BitVec.ofNat 16 k))) }

/-- The accesses of an instruction after its own bytes are fetched, in order (R94, items 3 and 4). -/
def dataAccesses (i : Instr) (s : State) : List Access :=
  match i.mnemonic with
  | .lda | .ldx | .ldy | .and | .ora | .eor | .bit | .adc | .sbc | .cmp | .cpx | .cpy => operandReads i s
  | .sta => modeReads i s ++ [.write (modeAddr i s) s.a]
  | .stx => modeReads i s ++ [.write (modeAddr i s) s.x]
  | .sty => modeReads i s ++ [.write (modeAddr i s) s.y]
  | .inc => operandReads i s ++ [.write (modeAddr i s) (operandValue i s + 1#8)]
  | .dec => operandReads i s ++ [.write (modeAddr i s) (operandValue i s - 1#8)]
  | .asl => operandReads i s ++ shiftWrite i s (fun v _ => v <<< 1)
  | .lsr => operandReads i s ++ shiftWrite i s (fun v _ => v >>> 1)
  | .rol => operandReads i s ++ shiftWrite i s (fun v c => (v <<< 1) ||| (if c then 1#8 else 0#8))
  | .ror => operandReads i s ++ shiftWrite i s (fun v c => (if c then 0x80#8 else 0#8) ||| (v >>> 1))
  | .pha => [.write (stackSlot s.sp) s.a]
  | .php => [.write (stackSlot s.sp) (s.status ||| 0x30#8)]
  | .pla | .plp => [.read (stackSlot (s.sp + 1#8)) (s.peek (stackSlot (s.sp + 1#8)))]
  | .jmp => modeReads i s
  | .jsr =>
    [.write (stackSlot s.sp) ((s.pc - 1#16).extractLsb' 8 8),
      .write (stackSlot (s.sp - 1#8)) ((s.pc - 1#16).extractLsb' 0 8)]
  | .rts =>
    [.read (stackSlot (s.sp + 1#8)) (s.peek (stackSlot (s.sp + 1#8))),
      .read (stackSlot (s.sp + 2#8)) (s.peek (stackSlot (s.sp + 2#8)))]
  | .brk =>
    [.write (stackSlot s.sp) ((s.pc + 1#16).extractLsb' 8 8),
      .write (stackSlot (s.sp - 1#8)) ((s.pc + 1#16).extractLsb' 0 8),
      .write (stackSlot (s.sp - 2#8)) (s.status ||| 0x30#8),
      .read 0xFFFE#16 (s.peek 0xFFFE#16), .read 0xFFFF#16 (s.peek 0xFFFF#16)]
  | .rti =>
    [.read (stackSlot (s.sp + 1#8)) (s.peek (stackSlot (s.sp + 1#8))),
      .read (stackSlot (s.sp + 2#8)) (s.peek (stackSlot (s.sp + 2#8))),
      .read (stackSlot (s.sp + 3#8)) (s.peek (stackSlot (s.sp + 3#8)))]
  | .tax | .tay | .txa | .tya | .tsx | .txs | .inx | .iny | .dex | .dey => []
  | .bpl | .bmi | .bvc | .bvs | .bcc | .bcs | .bne | .beq => []
  | .clc | .cld | .cli | .clv | .sec | .sed | .sei | .nop | .unassigned => []
where
  /-- The write of a shift: none on the accumulator. -/
  shiftWrite (i : Instr) (s : State) (g : Byte → Bool → Byte) : List Access :=
    if i.format = .acc then [] else [.write (modeAddr i s) (g (operandValue i s) (flagOf s.status .c))]

/-- The addresses of the bytes an instruction stores to. -/
def storedAddrs (i : Instr) (s : State) : List Addr :=
  match i.mnemonic with
  | .sta | .stx | .sty | .inc | .dec => [modeAddr i s]
  | .asl | .lsr | .rol | .ror => if i.format = .acc then [] else [modeAddr i s]
  | .pha | .php => [stackSlot s.sp]
  | .jsr => [stackSlot s.sp, stackSlot (s.sp - 1#8)]
  | .brk => [stackSlot s.sp, stackSlot (s.sp - 1#8), stackSlot (s.sp - 2#8)]
  | .lda | .ldx | .ldy | .and | .ora | .eor | .bit | .adc | .sbc | .cmp | .cpx | .cpy => []
  | .tax | .tay | .txa | .tya | .tsx | .txs | .inx | .iny | .dex | .dey => []
  | .pla | .plp | .jmp | .rts | .rti => []
  | .bpl | .bmi | .bvc | .bvs | .bcc | .bcs | .bne | .beq => []
  | .clc | .cld | .cli | .clv | .sec | .sed | .sei | .nop | .unassigned => []

/-- The mnemonics that write a status bit (R18 to R24; bit 5 by none). PLP and RTI take every bit from the stack. -/
def flagWriters : Flag → List Mnemonic
  | .c => [.adc, .sbc, .cmp, .cpx, .cpy, .asl, .lsr, .rol, .ror, .clc, .sec, .plp, .rti]
  | .z | .n => [.lda, .ldx, .ldy, .tax, .tay, .txa, .tya, .tsx, .pla, .and, .ora, .eor, .bit, .adc, .sbc, .cmp, .cpx, .cpy,
      .inc, .dec, .inx, .iny, .dex, .dey, .asl, .lsr, .rol, .ror, .plp, .rti]
  | .i => [.sei, .cli, .brk, .plp, .rti]
  | .d => [.sed, .cld, .plp, .rti]
  | .b => [.plp, .rti, .brk]
  | .v => [.adc, .sbc, .bit, .clv, .plp, .rti]
  | .u => [.plp, .rti]

/-- The condition of a branch: the flag it tests and the value it wants (R151 to R158). -/
def branchTest : Mnemonic → Option (Flag × Bool)
  | .bpl => some (.n, false)
  | .bmi => some (.n, true)
  | .bvc => some (.v, false)
  | .bvs => some (.v, true)
  | .bcc => some (.c, false)
  | .bcs => some (.c, true)
  | .bne => some (.z, false)
  | .beq => some (.z, true)
  | _ => none

/-- The instruction is a branch whose condition holds. -/
def branchTaken (m : Mnemonic) (p : Byte) : Bool :=
  match branchTest m with
  | some (f, v) => flagOf p f == v
  | none => false

/-- What an instruction of a load mnemonic does: the register takes the operand's value, and Z and N follow it. -/
def loads (m : Mnemonic) (put : State → Byte → State) : Prop :=
  ∀ (i : Instr) (s : State), i.mnemonic = m →
    exec i s = .next
      { put (after i s (operandReads i s)) (operandValue i s) with status := withZN s.status (operandValue i s) }

/-- What an instruction of a store mnemonic does: one write of the register's byte at the effective address, no read of it,
no register and no flag. -/
def stores (m : Mnemonic) (get : State → Byte) : Prop :=
  ∀ (i : Instr) (s : State), i.mnemonic = m →
    exec i s = .next
      ((after i s (modeReads i s ++ [.write (modeAddr i s) (get s)])).store (modeAddr i s) (get s))

/-- What a shift does: C is the bit shifted off, Z and N follow the new byte, and it goes back to where the operand came
from. -/
def shifts (m : Mnemonic) (g : Byte → Bool → Shifted) : Prop :=
  ∀ (i : Instr) (s : State), i.mnemonic = m →
    let r := g (operandValue i s) (flagOf s.status .c)
    let p := withZN (withFlag s.status .c r.carry) r.result
    (i.format = .acc → exec i s = .next { after i s [] with a := r.result, status := p }) ∧
    (i.format ≠ .acc → exec i s = .next
      { (after i s (operandReads i s ++ [.write (modeAddr i s) r.result])).store (modeAddr i s) r.result with status := p })

/-- What a branch does (R150). -/
def branches (m : Mnemonic) (f : Flag) (v : Bool) : Prop :=
  ∀ (i : Instr) (s : State), i.mnemonic = m →
    (flagOf s.status f = v → exec i s = .next
      { after i s [] with pc := s.pc + (byteOperand i).signExtend 16, cycles := some (baseCycles i.opcode + 1#8) }) ∧
    (flagOf s.status f = !v → exec i s = .next (after i s []))

/-- What a flag instruction does: the bit named takes the value, and every other bit and everything else stands. -/
def writesFlag (m : Mnemonic) (f : Flag) (v : Bool) : Prop :=
  ∀ (i : Instr) (s : State), i.mnemonic = m → ∃ p : Byte,
    exec i s = .next { after i s [] with status := p } ∧
    flagOf p f = v ∧
    ∀ g : Flag, g ≠ f → flagOf p g = flagOf s.status g

/-- What a compare does: C is `r >= v`, Z and N follow `(r - v) mod 256`, no register is written. -/
def compares (m : Mnemonic) (get : State → Byte) : Prop :=
  ∀ (i : Instr) (s : State), i.mnemonic = m →
    exec i s = .next
      { after i s (operandReads i s) with
        status := withZN (withFlag s.status .c (decide (operandValue i s ≤ get s))) (get s - operandValue i s) }

end Sys2Proof.Claims

open Sys2Proof Sys2Proof.Machine Sys2Proof.Claims

/-- Reset loads pc from 0xFFFC/0xFFFD and sets the other registers, and leaves the rest. R34 of spec/10_state.md,
R186, R187 of spec/70_reset_and_hazards.md. That reset makes these two accesses, in this order and no other, and
returns no count is the spec's decision D18 (log entry 21), and the fields that show it are the model's own (log
entries 12 and 14). -/
def Obligations.ResetSetsTheStatedRegisters : Prop :=
  ∀ s : State, s.resetToPowerUp =
    { s with
      pc := s.peek 0xFFFD#16 ++ s.peek 0xFFFC#16
      a := 0x00#8
      x := 0x00#8
      y := 0x00#8
      sp := 0xFD#8
      status := 0x34#8
      cycles := none
      accesses := [.read 0xFFFC#16 (s.peek 0xFFFC#16), .read 0xFFFD#16 (s.peek 0xFFFD#16)] }

/-- The invariant holds of the state after reset (R17), and resetting it gives it back (R186). Its empty memories are
the model's choice, log entries 4 and 5. -/
def Obligations.ResetStateMeetsInvariant : Prop :=
  Inv State.reset ∧ State.reset.resetToPowerUp = State.reset

/-- Every tick keeps status bit 5 set and both memories canonical and within bounds. R17 of spec/10_state.md, R40 of
spec/20_memory.md, R43 of spec/20_memory.md. The canonical form is the model's own (log entry 25). -/
def Obligations.EveryTickKeepsInvariant : Prop :=
  ∀ s t : State, Inv s → step s = .next t → Inv t

/-- Decoding an encoded well-formed instruction gives it back, with the bytes after it. spec/30_encoding.md R61, R63,
R65, R66, spec/20_memory.md R47. The map is the spec's general knowledge (log entry 2). -/
def Obligations.DecodeOfEncodeIsTheInstruction : Prop :=
  ∀ (i : Instr) (rest : List Byte), i.wellFormed = true → decode (encode i ++ rest) = .ok (i, rest)

/-- What decode reads is well formed and encodes to exactly the bytes it was read from. spec/30_encoding.md R61, R62,
R66. The map is the spec's general knowledge (log entry 2). -/
def Obligations.EncodeOfDecodeIsTheBytes : Prop :=
  ∀ (bytes rest : List Byte) (i : Instr), decode bytes = .ok (i, rest) →
    i.wellFormed = true ∧ encode i ++ rest = bytes ∧ (encode i).length = i.format.length

/-- Words written out from the spec's map decode to the instructions they stand for. spec/30_encoding.md R61, R63,
R65, R66, R68. The map is the spec's general knowledge (log entry 2). -/
def Obligations.SampleWordsDecodeAsTheSpecSays : Prop :=
  decode [0xA9#8, 0x80#8] = .ok (.ldaImm 0x80#8, []) ∧
  decode [0x96#8, 0x10#8] = .ok (.stxZpy 0x10#8, []) ∧
  decode [0x9A#8] = .ok (.txs, []) ∧
  decode [0x08#8] = .ok (.php, []) ∧
  decode [0x69#8, 0x05#8] = .ok (.adcImm 0x05#8, []) ∧
  decode [0xD1#8, 0x20#8] = .ok (.cmpIndy 0x20#8, []) ∧
  decode [0x7E#8, 0x00#8, 0x02#8] = .ok (.rorAbsx 0x0200#16, []) ∧
  decode [0x6C#8, 0xFF#8, 0x10#8] = .ok (.jmpInd 0x10FF#16, []) ∧
  decode [0xD0#8, 0xF9#8] = .ok (.bne 0xF9#8, []) ∧
  decode [0x00#8, 0xEA#8] = .ok (.brk, [0xEA#8]) ∧
  decode [0x02#8, 0xA9#8, 0x00#8] = .ok (.unassigned 0x02#8, [0xA9#8, 0x00#8])

/-- A tick is exec of the instruction at pc, after the fetch of its bytes. spec/40_engine.md R76, R77,
spec/30_encoding.md R62. That the operand bytes are read before exec is the model's layout (log entry 22). -/
def Obligations.TickRunsTheDecodedInstruction : Prop :=
  ∀ (s : State) (i : Instr) (rest : List Byte), decode (s.peekBytes s.pc 3) = .ok (i, rest) →
    step s = exec i (fetched s (encode i).length)

/-- Every tick, from every state, completes and returns a cycle count. R99. UNASSIGNED_POLICY is at its default nop
(log entry 11). -/
def Obligations.NoTickFails : Prop :=
  ∀ s : State, ∃ (t : State) (n : Byte), step s = .next t ∧ t.cycles = some n

/-- A tick returns the base count of the opcode byte, one more for a taken branch, 0 for an unassigned byte. R96,
R197, R199. The numbers of CYCLES are the spec's general knowledge (log entry 3). -/
def Obligations.TickReturnsTheCycleCount : Prop :=
  ∀ s t : State, step s = .next t →
    (isUnassigned (s.peek s.pc) = true → t.cycles = some 0#8) ∧
    (isUnassigned (s.peek s.pc) = false → t.cycles = some (baseCycles (s.peek s.pc) +
      (if branchTaken (decodeOpcode (s.peek s.pc)).1 s.status then 1#8 else 0#8))) ∧
    ((branchTest (decodeOpcode (s.peek s.pc)).1).isSome = true →
      t.cycles = some (if branchTaken (decodeOpcode (s.peek s.pc)).1 s.status then 3#8 else 2#8)) ∧
    ∀ c : Option Byte, step { s with cycles := c } = .next t

/-- Memory and events after a tick are those its recorded bus accesses make, in order (R13, R39, R40, R45, R50, R51).
The record is the model's own field, log entry 12. The event form is the spec's decision D12 (log entry 13). -/
def Obligations.TickActsOnlyThroughItsAccesses : Prop :=
  ∀ s t : State, step s = .next t → FollowsBy t.accesses s.beginTick t

/-- A tick makes the bus accesses of R94 in that order and no others. R94 of spec/40_engine.md. That there is no other
access is the spec's decision D7 (log entry 12). That a zero-page pointer at 0xFF wraps is the spec's decision D3 (log
entry 8). -/
def Obligations.TickMakesExactlyTheListedAccesses : Prop :=
  ∀ (s t : State) (i : Instr) (rest : List Byte), decode (s.peekBytes s.pc 3) = .ok (i, rest) → step s = .next t →
    t.accesses = (fetched s (encode i).length).accesses ++ dataAccesses i (fetched s (encode i).length)

/-- No tick changes the PRG image, the bus, or what a read of the mapper range returns. R42, R60 of spec/20_memory.md.
That the bus is a field of State, which no tick changes, is the model's layout (log entry 16). -/
def Obligations.PrgIsConstant : Prop :=
  ∀ s t : State, step s = .next t →
    t.prg = s.prg ∧ t.bus = s.bus ∧
    (s.bus ≠ .flat → ∀ addr : Addr, Config.busSplit ≤ addr → t.peek addr = s.peek addr)

/-- A bus read below 0x8000 reads RAM, from 0x8000 the PRG byte NROM gives. R38, R43. -/
def Obligations.BusReadIsMultiplexed : Prop :=
  ∀ (s : State) (addr : Addr) (banks : PrgBanks), s.bus = .mapped (.nrom banks) →
    s.memRead addr = (s.peek addr, { s with accesses := s.accesses ++ [.read addr (s.peek addr)] }) ∧
    (addr < 0x8000#16 → s.peek addr = s.ram.read addr.toNat) ∧
    (0x8000#16 ≤ addr → banks = .one → s.peek addr = s.prg.read ((addr - 0x8000#16) &&& 0x3FFF#16).toNat) ∧
    (0x8000#16 ≤ addr → banks = .two → s.peek addr = s.prg.read (addr - 0x8000#16).toNat) ∧
    (0xC000#16 ≤ addr → banks = .one → s.peek addr = s.peek (addr - 0x4000#16))

/-- A bus write below 0x8000 sets that RAM byte and no other; from 0x8000 it is discarded with one event. R39, R45 of
spec/20_memory.md. The event form is the spec's decision D12 (log entry 13), that RAM is not mirrored its decision D1
(log entry 6). -/
def Obligations.BusWriteIsMultiplexed : Prop :=
  ∀ (s : State) (addr : Addr) (v : Byte) (m : Mapper), s.bus = .mapped m →
    (addr < 0x8000#16 → (s.memWrite addr v).peek addr = v ∧ (s.memWrite addr v).events = s.events ∧
      ∀ b : Addr, b ≠ addr → (s.memWrite addr v).peek b = s.peek b) ∧
    (0x8000#16 ≤ addr → (∀ b : Addr, (s.memWrite addr v).peek b = s.peek b) ∧
      (s.memWrite addr v).events = s.events ++ [.illegalPrgWrite (addr - 0x8000#16) v]) ∧
    s.memWrite addr v =
      { s with
        ram := (s.memWrite addr v).ram
        events := (s.memWrite addr v).events
        accesses := s.accesses ++ [.write addr v] }

/-- On FlatBus every byte is RAM: a write sets its byte and no other, and emits no event. R58 of spec/20_memory.md.
FlatBus is the spec's decision D14 (log entry 16). -/
def Obligations.FlatBusIsPlainRam : Prop :=
  ∀ (s : State) (addr b : Addr) (v : Byte), s.bus = .flat →
    s.peek addr = s.ram.read addr.toNat ∧
    (s.memWrite addr v).peek b = (if b = addr then v else s.peek b) ∧
    (s.memWrite addr v).events = s.events

/-- LDA, LDX and LDY put the operand in the register and set Z and N on it. R101, R102, R103 of
spec/41_load_store_transfer.md, R89, R90 of spec/40_engine.md. That a zero-page pointer at 0xFF wraps is the spec's
decision D3 (log entry 8). The opcode bytes and counts of the rules are the spec's general knowledge (log entries 2
and 3). -/
def Obligations.LoadsTakeTheOperand : Prop :=
  loads .lda (fun t v => { t with a := v }) ∧
  loads .ldx (fun t v => { t with x := v }) ∧
  loads .ldy (fun t v => { t with y := v }) ∧
  HasEncodings .lda [
      (0xA9#8, .imm, 2, 2#8), (0xA5#8, .zp, 2, 3#8), (0xB5#8, .zpx, 2, 4#8),
      (0xAD#8, .abs, 3, 4#8), (0xBD#8, .absx, 3, 4#8), (0xB9#8, .absy, 3, 4#8),
      (0xA1#8, .indx, 2, 6#8), (0xB1#8, .indy, 2, 5#8)] ∧
  HasEncodings .ldx [
      (0xA2#8, .imm, 2, 2#8), (0xA6#8, .zp, 2, 3#8), (0xB6#8, .zpy, 2, 4#8),
      (0xAE#8, .abs, 3, 4#8), (0xBE#8, .absy, 3, 4#8)] ∧
  HasEncodings .ldy [
      (0xA0#8, .imm, 2, 2#8), (0xA4#8, .zp, 2, 3#8), (0xB4#8, .zpx, 2, 4#8),
      (0xAC#8, .abs, 3, 4#8), (0xBC#8, .absx, 3, 4#8)]

/-- STA, STX and STY write the register at the effective address, without a read and without a flag. R104, R105, R106
of spec/41_load_store_transfer.md, R89, R90 of spec/40_engine.md. That a zero-page pointer at 0xFF wraps is the spec's
decision D3 (log entry 8). The opcode bytes and counts of the rules are the spec's general knowledge (log entries 2
and 3). -/
def Obligations.StoresWriteTheRegister : Prop :=
  stores .sta (fun s => s.a) ∧
  stores .stx (fun s => s.x) ∧
  stores .sty (fun s => s.y) ∧
  HasEncodings .sta [
      (0x85#8, .zp, 2, 3#8), (0x95#8, .zpx, 2, 4#8), (0x8D#8, .abs, 3, 4#8),
      (0x9D#8, .absx, 3, 5#8), (0x99#8, .absy, 3, 5#8), (0x81#8, .indx, 2, 6#8),
      (0x91#8, .indy, 2, 6#8)] ∧
  HasEncodings .stx [(0x86#8, .zp, 2, 3#8), (0x96#8, .zpy, 2, 4#8), (0x8E#8, .abs, 3, 4#8)] ∧
  HasEncodings .sty [(0x84#8, .zp, 2, 3#8), (0x94#8, .zpx, 2, 4#8), (0x8C#8, .abs, 3, 4#8)]

/-- The six transfers copy a register; all but TXS set Z and N. R107, R108, R109, R110, R111, R112. The opcode bytes
and counts of the rules are the spec's general knowledge (log entries 2 and 3). -/
def Obligations.TransfersCopyTheRegister : Prop :=
  (∀ (i : Instr) (s : State), i.mnemonic = .tax → exec i s = .next { after i s [] with x := s.a, status := withZN s.status s.a }) ∧
  (∀ (i : Instr) (s : State), i.mnemonic = .tay → exec i s = .next { after i s [] with y := s.a, status := withZN s.status s.a }) ∧
  (∀ (i : Instr) (s : State), i.mnemonic = .txa → exec i s = .next { after i s [] with a := s.x, status := withZN s.status s.x }) ∧
  (∀ (i : Instr) (s : State), i.mnemonic = .tya → exec i s = .next { after i s [] with a := s.y, status := withZN s.status s.y }) ∧
  (∀ (i : Instr) (s : State), i.mnemonic = .tsx → exec i s = .next { after i s [] with x := s.sp, status := withZN s.status s.sp }) ∧
  (∀ (i : Instr) (s : State), i.mnemonic = .txs → exec i s = .next { after i s [] with sp := s.x }) ∧
  HasEncodings .tax [(0xAA#8, .imp, 1, 2#8)] ∧
  HasEncodings .tay [(0xA8#8, .imp, 1, 2#8)] ∧
  HasEncodings .txa [(0x8A#8, .imp, 1, 2#8)] ∧
  HasEncodings .tya [(0x98#8, .imp, 1, 2#8)] ∧
  HasEncodings .tsx [(0xBA#8, .imp, 1, 2#8)] ∧
  HasEncodings .txs [(0x9A#8, .imp, 1, 2#8)]

/-- PHA and PHP write the slot 0x0100 | sp and decrement sp. R119, R120 of spec/42_stack.md. That the slots are those
from sp down is the spec's decision D2 (log entry 7). The opcode bytes and counts of the rules are the spec's general
knowledge (log entries 2 and 3). -/
def Obligations.PushesWriteTheStackSlot : Prop :=
  (∀ (i : Instr) (s : State), i.mnemonic = .pha → exec i s = .next
    { (after i s [.write (stackSlot s.sp) s.a]).store (stackSlot s.sp) s.a with sp := s.sp - 1#8 }) ∧
  (∀ (i : Instr) (s : State), i.mnemonic = .php → exec i s = .next
    { (after i s [.write (stackSlot s.sp) (s.status ||| 0x30#8)]).store (stackSlot s.sp) (s.status ||| 0x30#8) with
      sp := s.sp - 1#8 }) ∧
  HasEncodings .pha [(0x48#8, .imp, 1, 3#8)] ∧
  HasEncodings .php [(0x08#8, .imp, 1, 3#8)]

/-- PLA and PLP increment sp and read the slot. R121, R122 of spec/42_stack.md. That the slots are those from sp down
is the spec's decision D2 (log entry 7). The opcode bytes and counts of the rules are the spec's general knowledge
(log entries 2 and 3). -/
def Obligations.PullsReadTheStackSlot : Prop :=
  (∀ (i : Instr) (s : State), i.mnemonic = .pla → exec i s = .next
    { after i s [.read (stackSlot (s.sp + 1#8)) (s.peek (stackSlot (s.sp + 1#8)))] with
      sp := s.sp + 1#8
      a := s.peek (stackSlot (s.sp + 1#8))
      status := withZN s.status (s.peek (stackSlot (s.sp + 1#8))) }) ∧
  (∀ (i : Instr) (s : State), i.mnemonic = .plp → exec i s = .next
    { after i s [.read (stackSlot (s.sp + 1#8)) (s.peek (stackSlot (s.sp + 1#8)))] with
      sp := s.sp + 1#8
      status := (s.peek (stackSlot (s.sp + 1#8)) ||| 0x20#8) &&& ~~~(0x10#8) }) ∧
  HasEncodings .pla [(0x68#8, .imp, 1, 4#8)] ∧
  HasEncodings .plp [(0x28#8, .imp, 1, 4#8)]

/-- AND, ORA and EOR combine the operand into a and set Z and N. R123, R124, R125 of spec/43_alu.md, R89, R90 of
spec/40_engine.md. That a zero-page pointer at 0xFF wraps is the spec's decision D3 (log entry 8). The opcode bytes
and counts of the rules are the spec's general knowledge (log entries 2 and 3). -/
def Obligations.LogicCombinesIntoA : Prop :=
  (∀ (i : Instr) (s : State), i.mnemonic = .and → exec i s = .next
    { after i s (operandReads i s) with
      a := s.a &&& operandValue i s
      status := withZN s.status (s.a &&& operandValue i s) }) ∧
  (∀ (i : Instr) (s : State), i.mnemonic = .ora → exec i s = .next
    { after i s (operandReads i s) with
      a := s.a ||| operandValue i s
      status := withZN s.status (s.a ||| operandValue i s) }) ∧
  (∀ (i : Instr) (s : State), i.mnemonic = .eor → exec i s = .next
    { after i s (operandReads i s) with
      a := s.a ^^^ operandValue i s
      status := withZN s.status (s.a ^^^ operandValue i s) }) ∧
  HasEncodings .and [
      (0x29#8, .imm, 2, 2#8), (0x25#8, .zp, 2, 3#8), (0x35#8, .zpx, 2, 4#8),
      (0x2D#8, .abs, 3, 4#8), (0x3D#8, .absx, 3, 4#8), (0x39#8, .absy, 3, 4#8),
      (0x21#8, .indx, 2, 6#8), (0x31#8, .indy, 2, 5#8)] ∧
  HasEncodings .ora [
      (0x09#8, .imm, 2, 2#8), (0x05#8, .zp, 2, 3#8), (0x15#8, .zpx, 2, 4#8),
      (0x0D#8, .abs, 3, 4#8), (0x1D#8, .absx, 3, 4#8), (0x19#8, .absy, 3, 4#8),
      (0x01#8, .indx, 2, 6#8), (0x11#8, .indy, 2, 5#8)] ∧
  HasEncodings .eor [
      (0x49#8, .imm, 2, 2#8), (0x45#8, .zp, 2, 3#8), (0x55#8, .zpx, 2, 4#8),
      (0x4D#8, .abs, 3, 4#8), (0x5D#8, .absx, 3, 4#8), (0x59#8, .absy, 3, 4#8),
      (0x41#8, .indx, 2, 6#8), (0x51#8, .indy, 2, 5#8)]

/-- BIT sets Z from a & v and copies bits 7 and 6 of v to N and V. R126. The opcode bytes and counts of the rules are
the spec's general knowledge (log entries 2 and 3). -/
def Obligations.BitTestsMemory : Prop :=
  (∀ (i : Instr) (s : State), i.mnemonic = .bit → ∃ p : Byte,
    exec i s = .next { after i s (operandReads i s) with status := p } ∧
    flagOf p .z = (s.a &&& operandValue i s == 0#8) ∧
    flagOf p .n = (operandValue i s).getLsbD 7 ∧
    flagOf p .v = (operandValue i s).getLsbD 6 ∧
    ∀ f : Flag, f ≠ .z → f ≠ .n → f ≠ .v → flagOf p f = flagOf s.status f) ∧
  HasEncodings .bit [(0x24#8, .zp, 2, 3#8), (0x2C#8, .abs, 3, 4#8)]

/-- ADC: carry, overflow, result and Z/N as the rule computes them. R127, R133 of spec/43_alu.md, R89, R90 of
spec/40_engine.md. That a zero-page pointer at 0xFF wraps is the spec's decision D3 (log entry 8). That D has no
effect is the spec's decision D4 (log entry 9). The opcode bytes and counts of the rules are the spec's general
knowledge (log entries 2 and 3). -/
def Obligations.AdcFollowsItsPseudocode : Prop :=
  (∀ (i : Instr) (s : State), i.mnemonic = .adc →
    let v := operandValue i s
    let sum := s.a.toNat + v.toNat + (flagOf s.status .c).toNat
    let r := BitVec.ofNat 8 (sum % 256)
    exec i s = .next
      { after i s (operandReads i s) with
        a := r
        status := withZN
          (withFlag (withFlag s.status .c (decide (sum > 255))) .v ((~~~(s.a ^^^ v) &&& (s.a ^^^ r) &&& 0x80#8) != 0#8)) r }) ∧
  HasEncodings .adc [
      (0x69#8, .imm, 2, 2#8), (0x65#8, .zp, 2, 3#8), (0x75#8, .zpx, 2, 4#8),
      (0x6D#8, .abs, 3, 4#8), (0x7D#8, .absx, 3, 4#8), (0x79#8, .absy, 3, 4#8),
      (0x61#8, .indx, 2, 6#8), (0x71#8, .indy, 2, 5#8)]

/-- SBC: ADC of the one's complement, with V on the sign mismatch. R128, R133 of spec/43_alu.md, R89, R90 of
spec/40_engine.md. That a zero-page pointer at 0xFF wraps is the spec's decision D3 (log entry 8). That D has no
effect is the spec's decision D4 (log entry 9). The opcode bytes and counts of the rules are the spec's general
knowledge (log entries 2 and 3). -/
def Obligations.SbcFollowsItsPseudocode : Prop :=
  (∀ (i : Instr) (s : State), i.mnemonic = .sbc →
    let v := operandValue i s
    let w := ~~~v
    let sum := s.a.toNat + w.toNat + (flagOf s.status .c).toNat
    let r := BitVec.ofNat 8 (sum % 256)
    exec i s = .next
      { after i s (operandReads i s) with
        a := r
        status := withZN
          (withFlag (withFlag s.status .c (decide (sum > 255))) .v (((s.a ^^^ v) &&& (s.a ^^^ r) &&& 0x80#8) != 0#8)) r }) ∧
  HasEncodings .sbc [
      (0xE9#8, .imm, 2, 2#8), (0xE5#8, .zp, 2, 3#8), (0xF5#8, .zpx, 2, 4#8),
      (0xED#8, .abs, 3, 4#8), (0xFD#8, .absx, 3, 4#8), (0xF9#8, .absy, 3, 4#8),
      (0xE1#8, .indx, 2, 6#8), (0xF1#8, .indy, 2, 5#8)]

/-- CMP, CPX and CPY set C, Z and N from register minus operand and write no register. R129, R130, R131 of
spec/43_alu.md, R89, R90 of spec/40_engine.md. That a zero-page pointer at 0xFF wraps is the spec's decision D3 (log
entry 8). The opcode bytes and counts of the rules are the spec's general knowledge (log entries 2 and 3). -/
def Obligations.ComparesSetCarryAndZN : Prop :=
  compares .cmp (fun s => s.a) ∧
  compares .cpx (fun s => s.x) ∧
  compares .cpy (fun s => s.y) ∧
  HasEncodings .cmp [
      (0xC9#8, .imm, 2, 2#8), (0xC5#8, .zp, 2, 3#8), (0xD5#8, .zpx, 2, 4#8),
      (0xCD#8, .abs, 3, 4#8), (0xDD#8, .absx, 3, 4#8), (0xD9#8, .absy, 3, 4#8),
      (0xC1#8, .indx, 2, 6#8), (0xD1#8, .indy, 2, 5#8)] ∧
  HasEncodings .cpx [(0xE0#8, .imm, 2, 2#8), (0xE4#8, .zp, 2, 3#8), (0xEC#8, .abs, 3, 4#8)] ∧
  HasEncodings .cpy [(0xC0#8, .imm, 2, 2#8), (0xC4#8, .zp, 2, 3#8), (0xCC#8, .abs, 3, 4#8)]

/-- INC and DEC read the byte, write it stepped by one, and set Z and N. R135, R136, R145 of spec/44_incdec_shift.md,
R94 of spec/40_engine.md. That there is no other access is the spec's decision D7 (log entry 12). The opcode bytes and
counts of the rules are the spec's general knowledge (log entries 2 and 3). -/
def Obligations.IncDecStepMemory : Prop :=
  (∀ (i : Instr) (s : State), i.mnemonic = .inc →
    let r := operandValue i s + 1#8
    exec i s = .next
      { (after i s (operandReads i s ++ [.write (modeAddr i s) r])).store (modeAddr i s) r with
        status := withZN s.status r }) ∧
  (∀ (i : Instr) (s : State), i.mnemonic = .dec →
    let r := operandValue i s - 1#8
    exec i s = .next
      { (after i s (operandReads i s ++ [.write (modeAddr i s) r])).store (modeAddr i s) r with
        status := withZN s.status r }) ∧
  HasEncodings .inc [
      (0xE6#8, .zp, 2, 5#8), (0xF6#8, .zpx, 2, 6#8), (0xEE#8, .abs, 3, 6#8),
      (0xFE#8, .absx, 3, 7#8)] ∧
  HasEncodings .dec [
      (0xC6#8, .zp, 2, 5#8), (0xD6#8, .zpx, 2, 6#8), (0xCE#8, .abs, 3, 6#8),
      (0xDE#8, .absx, 3, 7#8)]

/-- INX, INY, DEX and DEY step the register by one modulo 256 and set Z and N. R137, R138, R139, R140. The opcode
bytes and counts of the rules are the spec's general knowledge (log entries 2 and 3). -/
def Obligations.IncDecStepRegisters : Prop :=
  (∀ (i : Instr) (s : State), i.mnemonic = .inx → exec i s = .next
    { after i s [] with x := s.x + 1#8, status := withZN s.status (s.x + 1#8) }) ∧
  (∀ (i : Instr) (s : State), i.mnemonic = .iny → exec i s = .next
    { after i s [] with y := s.y + 1#8, status := withZN s.status (s.y + 1#8) }) ∧
  (∀ (i : Instr) (s : State), i.mnemonic = .dex → exec i s = .next
    { after i s [] with x := s.x - 1#8, status := withZN s.status (s.x - 1#8) }) ∧
  (∀ (i : Instr) (s : State), i.mnemonic = .dey → exec i s = .next
    { after i s [] with y := s.y - 1#8, status := withZN s.status (s.y - 1#8) }) ∧
  HasEncodings .inx [(0xE8#8, .imp, 1, 2#8)] ∧
  HasEncodings .iny [(0xC8#8, .imp, 1, 2#8)] ∧
  HasEncodings .dex [(0xCA#8, .imp, 1, 2#8)] ∧
  HasEncodings .dey [(0x88#8, .imp, 1, 2#8)]

/-- ASL, LSR, ROL and ROR on the accumulator and on memory. R141, R142, R143, R144, R145 of spec/44_incdec_shift.md,
R94 of spec/40_engine.md. That there is no other access is the spec's decision D7 (log entry 12). The opcode bytes and
counts of the rules are the spec's general knowledge (log entries 2 and 3). -/
def Obligations.ShiftsMoveABitThroughCarry : Prop :=
  shifts .asl (fun v _ => ⟨v <<< 1, v.getLsbD 7⟩) ∧
  shifts .lsr (fun v _ => ⟨v >>> 1, v.getLsbD 0⟩) ∧
  shifts .rol (fun v c => ⟨(v <<< 1) ||| (if c then 1#8 else 0#8), v.getLsbD 7⟩) ∧
  shifts .ror (fun v c => ⟨(if c then 0x80#8 else 0#8) ||| (v >>> 1), v.getLsbD 0⟩) ∧
  HasEncodings .asl [
      (0x0A#8, .acc, 1, 2#8), (0x06#8, .zp, 2, 5#8), (0x16#8, .zpx, 2, 6#8),
      (0x0E#8, .abs, 3, 6#8), (0x1E#8, .absx, 3, 7#8)] ∧
  HasEncodings .lsr [
      (0x4A#8, .acc, 1, 2#8), (0x46#8, .zp, 2, 5#8), (0x56#8, .zpx, 2, 6#8),
      (0x4E#8, .abs, 3, 6#8), (0x5E#8, .absx, 3, 7#8)] ∧
  HasEncodings .rol [
      (0x2A#8, .acc, 1, 2#8), (0x26#8, .zp, 2, 5#8), (0x36#8, .zpx, 2, 6#8),
      (0x2E#8, .abs, 3, 6#8), (0x3E#8, .absx, 3, 7#8)] ∧
  HasEncodings .ror [
      (0x6A#8, .acc, 1, 2#8), (0x66#8, .zp, 2, 5#8), (0x76#8, .zpx, 2, 6#8),
      (0x6E#8, .abs, 3, 6#8), (0x7E#8, .absx, 3, 7#8)]

/-- JMP sets pc to the absolute operand, or to the word at the pointer with the page-wrap quirk. R147, R88. The opcode
bytes and counts of the rules are the spec's general knowledge (log entries 2 and 3). -/
def Obligations.JmpGoesToTheTarget : Prop :=
  (∀ (hhll : Addr) (s : State), exec (.jmpAbs hhll) s = .next { after (.jmpAbs hhll) s [] with pc := hhll }) ∧
  (∀ (ptr : Addr) (s : State),
    let high : Addr := ptr.extractLsb' 8 8 ++ (ptr.extractLsb' 0 8 + 1#8)
    exec (.jmpInd ptr) s = .next
      { after (.jmpInd ptr) s [.read ptr (s.peek ptr), .read high (s.peek high)] with
        pc := s.peek high ++ s.peek ptr }) ∧
  HasEncodings .jmp [(0x4C#8, .abs, 3, 3#8), (0x6C#8, .ind, 3, 5#8)]

/-- JSR pushes pc - 1, high byte first, and jumps. R148 of spec/45_control.md. That the slots are those from sp down
is the spec's decision D2 (log entry 7). The opcode bytes and counts of the rules are the spec's general knowledge
(log entries 2 and 3). -/
def Obligations.JsrPushesTheReturnAddress : Prop :=
  (∀ (i : Instr) (s : State), i.mnemonic = .jsr →
    let rh := (s.pc - 1#16).extractLsb' 8 8
    let rl := (s.pc - 1#16).extractLsb' 0 8
    exec i s = .next
      { ((after i s [.write (stackSlot s.sp) rh, .write (stackSlot (s.sp - 1#8)) rl]).store
          (stackSlot s.sp) rh).store (stackSlot (s.sp - 1#8)) rl with
        sp := s.sp - 2#8
        pc := wordOperand i }) ∧
  HasEncodings .jsr [(0x20#8, .abs, 3, 6#8)]

/-- RTS pulls a word, low byte first, and continues at the word plus one. R149 of spec/45_control.md. That the slots
are those from sp down is the spec's decision D2 (log entry 7). The opcode bytes and counts of the rules are the
spec's general knowledge (log entries 2 and 3). -/
def Obligations.RtsPullsTheReturnAddress : Prop :=
  (∀ (i : Instr) (s : State), i.mnemonic = .rts →
    let lo := stackSlot (s.sp + 1#8)
    let hi := stackSlot (s.sp + 2#8)
    exec i s = .next
      { after i s [.read lo (s.peek lo), .read hi (s.peek hi)] with
        sp := s.sp + 2#8
        pc := (s.peek hi ++ s.peek lo : Addr) + 1#16 }) ∧
  HasEncodings .rts [(0x60#8, .imp, 1, 6#8)]

/-- The eight branches: the flag each tests, the target, the count, and nothing else. R150, R151, R152, R153, R154,
R155, R156, R157, R158. The opcode bytes and counts of the rules are the spec's general knowledge (log entries 2 and
3). -/
def Obligations.BranchesTestOneFlag : Prop :=
  branches .bpl .n false ∧
  branches .bmi .n true ∧
  branches .bvc .v false ∧
  branches .bvs .v true ∧
  branches .bcc .c false ∧
  branches .bcs .c true ∧
  branches .bne .z false ∧
  branches .beq .z true ∧
  HasEncodings .bpl [(0x10#8, .rel, 2, 2#8)] ∧
  HasEncodings .bmi [(0x30#8, .rel, 2, 2#8)] ∧
  HasEncodings .bvc [(0x50#8, .rel, 2, 2#8)] ∧
  HasEncodings .bvs [(0x70#8, .rel, 2, 2#8)] ∧
  HasEncodings .bcc [(0x90#8, .rel, 2, 2#8)] ∧
  HasEncodings .bcs [(0xB0#8, .rel, 2, 2#8)] ∧
  HasEncodings .bne [(0xD0#8, .rel, 2, 2#8)] ∧
  HasEncodings .beq [(0xF0#8, .rel, 2, 2#8)]

/-- CLC, CLD, CLI, CLV, SEC, SED and SEI write exactly one status bit. R160, R161, R162, R163, R164, R165, R166. The
opcode bytes and counts of the rules are the spec's general knowledge (log entries 2 and 3). -/
def Obligations.FlagInstructionsWriteOneBit : Prop :=
  writesFlag .clc .c false ∧
  writesFlag .cld .d false ∧
  writesFlag .cli .i false ∧
  writesFlag .clv .v false ∧
  writesFlag .sec .c true ∧
  writesFlag .sed .d true ∧
  writesFlag .sei .i true ∧
  HasEncodings .clc [(0x18#8, .imp, 1, 2#8)] ∧
  HasEncodings .cld [(0xD8#8, .imp, 1, 2#8)] ∧
  HasEncodings .cli [(0x58#8, .imp, 1, 2#8)] ∧
  HasEncodings .clv [(0xB8#8, .imp, 1, 2#8)] ∧
  HasEncodings .sec [(0x38#8, .imp, 1, 2#8)] ∧
  HasEncodings .sed [(0xF8#8, .imp, 1, 2#8)] ∧
  HasEncodings .sei [(0x78#8, .imp, 1, 2#8)]

/-- BRK saves pc + 1 and the status on the stack, clears B, sets I, and goes to the vector. R167 of
spec/46_flag_system.md. That the slots are those from sp down is the spec's decision D2 (log entry 7). That the live B
is 0 after BRK is the spec's decision D15 (log entry 15). The opcode bytes and counts of the rules are the spec's
general knowledge (log entries 2 and 3). -/
def Obligations.BrkEntersTheTrap : Prop :=
  (∀ (i : Instr) (s : State), i.mnemonic = .brk → ∃ t : State, exec i s = .next t ∧
    t.peek (stackSlot s.sp) = (s.pc + 1#16).extractLsb' 8 8 ∧
    t.peek (stackSlot (s.sp - 1#8)) = (s.pc + 1#16).extractLsb' 0 8 ∧
    t.peek (stackSlot (s.sp - 2#8)) = s.status ||| 0x30#8 ∧
    (∀ b : Addr, b ≠ stackSlot s.sp → b ≠ stackSlot (s.sp - 1#8) → b ≠ stackSlot (s.sp - 2#8) → t.peek b = s.peek b) ∧
    t.sp = s.sp - 3#8 ∧
    flagOf t.status .b = false ∧
    flagOf t.status .i = true ∧
    (∀ f : Flag, f ≠ .b → f ≠ .i → flagOf t.status f = flagOf s.status f) ∧
    t.pc = s.peek 0xFFFF#16 ++ s.peek 0xFFFE#16 ∧
    t.a = s.a ∧ t.x = s.x ∧ t.y = s.y ∧ t.bus = s.bus ∧ t.prg = s.prg ∧ t.events = s.events ∧
    t.cycles = some (baseCycles i.opcode) ∧
    t.accesses = s.accesses ++ dataAccesses i s) ∧
  HasEncodings .brk [(0x00#8, .imp, 1, 7#8)]

/-- RTI takes the status, with bit 5 set and B cleared, and then pc from the stack. R168 of spec/46_flag_system.md.
That the slots are those from sp down is the spec's decision D2 (log entry 7). The opcode bytes and counts of the
rules are the spec's general knowledge (log entries 2 and 3). -/
def Obligations.RtiLeavesTheTrap : Prop :=
  (∀ (i : Instr) (s : State), i.mnemonic = .rti →
    let p := stackSlot (s.sp + 1#8)
    let lo := stackSlot (s.sp + 2#8)
    let hi := stackSlot (s.sp + 3#8)
    exec i s = .next
      { after i s [.read p (s.peek p), .read lo (s.peek lo), .read hi (s.peek hi)] with
        sp := s.sp + 3#8
        status := (s.peek p ||| 0x20#8) &&& ~~~(0x10#8)
        pc := s.peek hi ++ s.peek lo }) ∧
  HasEncodings .rti [(0x40#8, .imp, 1, 6#8)]

/-- NOP returns its count and changes nothing. R169. The opcode bytes and counts of the rules are the spec's general
knowledge (log entries 2 and 3). -/
def Obligations.NopChangesNothing : Prop :=
  (∀ (i : Instr) (s : State), i.mnemonic = .nop → exec i s = .next { s with cycles := some 2#8 }) ∧
  HasEncodings .nop [(0xEA#8, .imp, 1, 2#8)]

/-- A tick at one of the 105 unassigned bytes moves pc by one, reads that byte only, and returns 0. R95 of
spec/40_engine.md. That the byte is one byte long and the policy nop are the spec's decision D6 (log entry 11). -/
def Obligations.UnassignedByteOnlyAdvancesPc : Prop :=
  (∀ s : State, isUnassigned (s.peek s.pc) = true → step s = .next
    { s with pc := s.pc + 1#16, cycles := some 0#8, accesses := [.read s.pc (s.peek s.pc)] }) ∧
  (∀ (op : Byte) (s : State), exec (.unassigned op) s = .next { s with cycles := some 0#8 }) ∧
  (∀ (op : Byte) (s : State), runUnassigned .refuse op s = .refused (.unassignedOpcode op))

/-- SetZN(v) sets Z exactly if v is 0 and N to bit 7 of v, and no other bit. R93. -/
def Obligations.SetZNSetsZeroAndNegativeOnly : Prop :=
  ∀ (s : State) (v : Byte),
    flagOf (s.setZN v).status .z = (v == 0#8) ∧
    flagOf (s.setZN v).status .n = v.getLsbD 7 ∧
    (∀ f : Flag, f ≠ .z → f ≠ .n → flagOf (s.setZN v).status f = flagOf s.status f) ∧
    s.setZN v = { s with status := (s.setZN v).status }

/-- ADC adds exactly: carry is unsigned overflow and V is signed overflow. R127 and R132 of spec/43_alu.md. That D has
no effect is the spec's decision D4 (log entry 9). -/
def Obligations.AdcIsExactAddition : Prop :=
  ∀ (i : Instr) (s : State), i.mnemonic = .adc → ∃ t : State, exec i s = .next t ∧
    256 * (flagOf t.status .c).toNat + t.a.toNat =
      s.a.toNat + (operandValue i s).toNat + (flagOf s.status .c).toNat ∧
    (flagOf t.status .v = true ↔
      s.a.toInt + (operandValue i s).toInt + ((flagOf s.status .c).toNat : Int) < -128 ∨
      127 < s.a.toInt + (operandValue i s).toInt + ((flagOf s.status .c).toNat : Int))

/-- SBC subtracts exactly: carry is no borrow and V is signed overflow. R128 and R132 of spec/43_alu.md. That D has no
effect is the spec's decision D4 (log entry 9). -/
def Obligations.SbcIsExactSubtraction : Prop :=
  ∀ (i : Instr) (s : State), i.mnemonic = .sbc → ∃ t : State, exec i s = .next t ∧
    (t.a.toNat : Int) =
      s.a.toNat - (operandValue i s).toNat - (1 - ((flagOf s.status .c).toNat : Int)) +
        256 * (1 - ((flagOf t.status .c).toNat : Int)) ∧
    (flagOf t.status .v = true ↔
      s.a.toInt - (operandValue i s).toInt - (1 - ((flagOf s.status .c).toNat : Int)) < -128 ∨
      127 < s.a.toInt - (operandValue i s).toInt - (1 - ((flagOf s.status .c).toNat : Int)))

/-- After a compare C, Z and N order register and operand as the rule's three cases say. R134 of spec/43_alu.md, R89,
R90 of spec/40_engine.md. The three cases are the sentence R134 marks as derived. That a zero-page pointer at 0xFF
wraps is the spec's decision D3 (log entry 8). -/
def Obligations.CompareOrdersUnsigned : Prop :=
  ∀ (i : Instr) (s : State) (r : Byte),
    (i.mnemonic = .cmp ∧ r = s.a ∨ i.mnemonic = .cpx ∧ r = s.x ∨ i.mnemonic = .cpy ∧ r = s.y) →
    ∃ p : Byte, exec i s = .next { after i s (operandReads i s) with status := p } ∧
      (∀ f : Flag, f ≠ .c → f ≠ .z → f ≠ .n → flagOf p f = flagOf s.status f) ∧
      (r = operandValue i s → flagOf p .z = true ∧ flagOf p .c = true ∧ flagOf p .n = false) ∧
      (operandValue i s < r → flagOf p .z = false ∧ flagOf p .c = true ∧
        flagOf p .n = (r - operandValue i s).getLsbD 7) ∧
      (r < operandValue i s → flagOf p .z = false ∧ flagOf p .c = false ∧
        flagOf p .n = (r - operandValue i s).getLsbD 7)

/-- Nine ROL A, or nine ROR A, restore the accumulator and the carry. R143 and R144 of spec/44_incdec_shift.md. -/
def Obligations.NineRotationsRestore : Prop :=
  ∀ run : Fin 10 → State,
    ((∀ k : Fin 9, exec .rolAcc (run k.castSucc) = .next (run k.succ)) ∨
      (∀ k : Fin 9, exec .rorAcc (run k.castSucc) = .next (run k.succ))) →
    (run 9).a = (run 0).a ∧ flagOf (run 9).status .c = flagOf (run 0).status .c

/-- Every access of a stack instruction is in 0x0100-0x01FF, but for BRK's vector reads. R113, R115, R116 of
spec/42_stack.md. That the slots are those from sp down is the spec's decision D2 (log entry 7). -/
def Obligations.StackAccessesStayInTheStackPage : Prop :=
  ∀ (i : Instr) (s t : State), i.mnemonic ∈ [.pha, .php, .pla, .plp, .jsr, .rts, .rti, .brk] → exec i s = .next t →
    ∀ e ∈ t.accesses.drop s.accesses.length,
      (∃ (addr : Addr) (v : Byte), (e = .read addr v ∨ e = .write addr v) ∧ 0x0100#16 ≤ addr ∧ addr ≤ 0x01FF#16) ∨
      (i.mnemonic = .brk ∧ ∃ v : Byte, e = .read 0xFFFE#16 v ∨ e = .read 0xFFFF#16 v)

/-- Push writes the slot and decrements; pull increments and reads; a pull after a push gives the byte back. R117,
R118 of spec/42_stack.md. That the slots are those from sp down is the spec's decision D2 (log entry 7). -/
def Obligations.PullGivesBackThePush : Prop :=
  ∀ (s : State) (v : Byte),
    s.push v = { s.memWrite (0x0100#16 ||| s.sp.setWidth 16) v with sp := s.sp - 1#8 } ∧
    s.pull = State.memRead { s with sp := s.sp + 1#8 } (0x0100#16 ||| (s.sp + 1#8).setWidth 16) ∧
    (∀ b : Addr, (s.push v).peek b = if b = 0x0100#16 ||| s.sp.setWidth 16 then v else s.peek b) ∧
    (s.push v).sp = s.sp - 1#8 ∧
    (s.pull).2.sp = s.sp + 1#8 ∧
    (s.pull).1 = s.peek (0x0100#16 ||| (s.sp + 1#8).setWidth 16) ∧
    (∀ b : Addr, (s.pull).2.peek b = s.peek b) ∧
    (s.push v).pull.1 = v ∧
    (s.push v).pull.2.sp = s.sp

/-- 256 PHA restore sp and 257 leave it one below; the wraps at 0x00 and 0xFF. R115 of spec/42_stack.md. That the
slots are those from sp down is the spec's decision D2 (log entry 7). -/
def Obligations.PushesWrapAfter256 : Prop :=
  (∀ (n : Nat) (run : Nat → State), (∀ k, k < n → exec .pha (run k) = .next (run (k + 1))) →
    (run n).sp = (run 0).sp - BitVec.ofNat 8 n ∧
    (n = 256 → (run n).sp = (run 0).sp) ∧
    (n = 257 → (run n).sp = (run 0).sp - 1#8)) ∧
  (∀ (s : State) (v : Byte), s.sp = 0x00#8 → (s.push v).sp = 0xFF#8 ∧ (s.push v).peek 0x0100#16 = v) ∧
  (∀ s : State, s.sp = 0xFF#8 → (s.pull).2.sp = 0x00#8 ∧ (s.pull).1 = s.peek 0x0100#16)

/-- RTS after JSR continues after the JSR with the stack pointer of before. R148, R149 and R159 of spec/45_control.md.
That the slots are those from sp down is the spec's decision D2 (log entry 7). -/
def Obligations.JsrThenRtsReturns : Prop :=
  ∀ (hhll : Addr) (s t u : State), exec (.jsr hhll) s = .next t → u.sp = t.sp →
    u.peek (stackSlot s.sp) = t.peek (stackSlot s.sp) →
    u.peek (stackSlot (s.sp - 1#8)) = t.peek (stackSlot (s.sp - 1#8)) →
    ∃ w : State, exec .rts u = .next w ∧ w.pc = s.pc ∧ w.sp = s.sp

/-- RTI after BRK continues at BRK + 2 with every register and flag but B restored. R176 of spec/60_exceptions.md.
That the slots are those from sp down is the spec's decision D2 (log entry 7). That the live B is 0 after BRK is the
spec's decision D15 (log entry 15). -/
def Obligations.BrkThenRtiReturns : Prop :=
  ∀ s t u : State, exec .brk s = .next t → u.sp = t.sp → u.a = t.a → u.x = t.x → u.y = t.y →
    u.peek (stackSlot s.sp) = t.peek (stackSlot s.sp) →
    u.peek (stackSlot (s.sp - 1#8)) = t.peek (stackSlot (s.sp - 1#8)) →
    u.peek (stackSlot (s.sp - 2#8)) = t.peek (stackSlot (s.sp - 2#8)) →
    ∃ w : State, exec .rti u = .next w ∧ w.pc = s.pc + 1#16 ∧ w.sp = s.sp ∧ w.a = s.a ∧ w.x = s.x ∧ w.y = s.y ∧
      flagOf w.status .b = false ∧ flagOf w.status .u = true ∧
      ∀ f : Flag, f ≠ .b → f ≠ .u → flagOf w.status f = flagOf s.status f

/-- a, x, y, sp, pc, bus and PRG change only by the instructions the spec names as their writers. R15, R25, R26, R27
of spec/10_state.md, R60 of spec/20_memory.md. -/
def Obligations.RegistersHaveOnlyTheirWriters : Prop :=
  ∀ (i : Instr) (s t : State), exec i s = .next t →
    (i.mnemonic ∉ [.lda, .pla, .txa, .tya, .and, .ora, .eor, .adc, .sbc] → i.format ≠ .acc → t.a = s.a) ∧
    (i.mnemonic ∉ [.ldx, .tax, .tsx, .inx, .dex] → t.x = s.x) ∧
    (i.mnemonic ∉ [.ldy, .tay, .iny, .dey] → t.y = s.y) ∧
    (i.mnemonic ∉ [.txs, .pha, .php, .pla, .plp, .jsr, .rts, .brk, .rti] → t.sp = s.sp) ∧
    (i.mnemonic ∉ [.jmp, .jsr, .rts, .brk, .rti, .bpl, .bmi, .bvc, .bvs, .bcc, .bcs, .bne, .beq] → t.pc = s.pc) ∧
    t.bus = s.bus ∧ t.prg = s.prg

/-- A status bit changes only by an instruction whose rule names it as written. R100. -/
def Obligations.FlagsHaveOnlyTheirWriters : Prop :=
  ∀ (i : Instr) (s t : State) (f : Flag), exec i s = .next t → i.mnemonic ∉ flagWriters f →
    flagOf t.status f = flagOf s.status f

/-- Every byte outside the addresses an instruction stores to reads as before. R13 of spec/10_state.md, R94 of
spec/40_engine.md. That the slots are those from sp down is the spec's decision D2 (log entry 7). That a zero-page
pointer at 0xFF wraps is the spec's decision D3 (log entry 8). -/
def Obligations.BytesOutsideTheStoreStand : Prop :=
  ∀ (i : Instr) (s t : State), exec i s = .next t → ∀ b : Addr, b ∉ storedAddrs i s → t.peek b = s.peek b

/-- A tick moves pc past the instruction's bytes, modulo 65536, unless a control transfer overwrites it. R27 of
spec/10_state.md, R76 of spec/40_engine.md. -/
def Obligations.PcAdvancesByTheLength : Prop :=
  ∀ (s t : State) (i : Instr) (rest : List Byte), decode (s.peekBytes s.pc 3) = .ok (i, rest) → step s = .next t →
    i.mnemonic ∉ [.jmp, .jsr, .rts, .brk, .rti] → branchTaken i.mnemonic s.status = false →
    t.pc = s.pc + BitVec.ofNat 16 i.format.length

/-- Two states that differ only in the live B bit stay so under every tick. R18 of spec/10_state.md, R120 of
spec/42_stack.md, R167 of spec/46_flag_system.md. That the live B is 0 after BRK is the spec's decision D15 (log entry
15). -/
def Obligations.LiveBreakFlagIsNeverRead : Prop :=
  ∀ (s t : State) (b : Bool), step s = .next t → ∃ u : State, step (s.setFlag .b b) = .next u ∧
    u = { t with status := u.status } ∧
    ∀ f : Flag, f ≠ .b → flagOf u.status f = flagOf t.status f

/-- No instruction's registers, count, or other flags depend on I or on D. R21, R22 of spec/10_state.md, R133 of
spec/43_alu.md, R173 of spec/60_exceptions.md. These are the spec's decisions D4 and D5 (log entries 9 and 10). -/
def Obligations.InterruptAndDecimalFlagsSteerNothing : Prop :=
  ∀ (i : Instr) (s t : State) (f : Flag) (b : Bool), (f = .i ∨ f = .d) → exec i s = .next t →
    ∃ u : State, exec i (s.setFlag f b) = .next u ∧
      u.pc = t.pc ∧ u.sp = t.sp ∧ u.a = t.a ∧ u.x = t.x ∧ u.y = t.y ∧ u.cycles = t.cycles ∧ u.events = t.events ∧
      ∀ g : Flag, g ≠ f → flagOf u.status g = flagOf t.status g

/-- A snapshot copies the registers; a load sets them, keeps memory, and refuses status bit 5 clear. R31, R32 of
spec/10_state.md. That bit 5 clear is refused is the spec's decision D10 (log entry 18). -/
def Obligations.SnapshotAndLoadAgree : Prop :=
  (∀ s : State, s.snapshot = ⟨s.pc, s.sp, s.a, s.x, s.y, s.status⟩) ∧
  (∀ (s : State) (c : CPUState), c.status.getLsbD 5 = true → ∃ t : State, s.loadCPU c = .ok t ∧
    t.snapshot = c ∧ t.bus = s.bus ∧ t.ram = s.ram ∧ t.prg = s.prg ∧ t.events = s.events ∧ t.accesses = []) ∧
  (∀ (s : State) (c : CPUState), c.status.getLsbD 5 = false → s.loadCPU c = .error .statusBit5Clear)

/-- A machine is built exactly for NROM with one or two banks of PRG (R42, R44, R190, R191). The mapper id is the
spec's decision D13, log entry 17. -/
def Obligations.BootRefusesWhatHasNoBus : Prop :=
  ∀ (id : Nat) (bytes : List Byte) (ram0 : Memory),
    (id ≠ Config.nromMapperId → State.boot id bytes ram0 = .error (.unsupportedMapper id)) ∧
    (id = Config.nromMapperId → bytes.length = 16384 →
      State.boot id bytes ram0 = .ok (State.powerUp (.mapped (.nrom .one)) (Memory.ofBytes bytes) ram0)) ∧
    (id = Config.nromMapperId → bytes.length = 32768 →
      State.boot id bytes ram0 = .ok (State.powerUp (.mapped (.nrom .two)) (Memory.ofBytes bytes) ram0)) ∧
    (id = Config.nromMapperId → bytes.length ≠ 16384 → bytes.length ≠ 32768 →
      State.boot id bytes ram0 = .error (.unsupportedBankCount bytes.length))

/-- A machine that boots on any cartridge and any RAM0 meets the invariant. R17, R34 of spec/10_state.md, R186 of
spec/70_reset_and_hazards.md. The canonical form, of RAM0 and in Inv, is the model's own (log entry 25). -/
def Obligations.BootedMachineMeetsInvariant : Prop :=
  ∀ (id : Nat) (bytes : List Byte) (ram0 : Memory) (s : State), ram0.wf Config.ramSize = true →
    State.boot id bytes ram0 = .ok s → Inv s

/-- A run that ends, ends with pc = END after ticks none of which began there, and more ticks do not move it. R200 of
spec/70_reset_and_hazards.md. The end of a run is the spec's decision D16 (log entry 19). -/
def Obligations.RunEndsAtTheFirstBoundary : Prop :=
  ∀ (endAddr : Addr) (n : Nat) (s t : State), runToEnd endAddr n s = some t →
    atEnd endAddr t ∧
    (∃ (k : Nat) (run : Nat → State), k ≤ n ∧ run 0 = s ∧ run k = t ∧
      ∀ j, j < k → ¬ atEnd endAddr (run j) ∧ step (run j) = .next (run (j + 1))) ∧
    ∀ m, runToEnd endAddr (n + m) s = some t

/-- The flags are the status bits of the layout, and writing one writes no other. R16 of spec/10_state.md. -/
def Obligations.StatusBitsStandWhereTheSpecPutsThem : Prop :=
  ∀ p : Byte,
    (flagOf p .c = p.getLsbD 0 ∧ flagOf p .z = p.getLsbD 1 ∧ flagOf p .i = p.getLsbD 2 ∧ flagOf p .d = p.getLsbD 3 ∧
      flagOf p .b = p.getLsbD 4 ∧ flagOf p .u = p.getLsbD 5 ∧ flagOf p .v = p.getLsbD 6 ∧ flagOf p .n = p.getLsbD 7) ∧
    (withFlag p .c true = p ||| 0x01#8 ∧ withFlag p .z true = p ||| 0x02#8 ∧ withFlag p .i true = p ||| 0x04#8 ∧
      withFlag p .d true = p ||| 0x08#8 ∧ withFlag p .b true = p ||| 0x10#8 ∧ withFlag p .u true = p ||| 0x20#8 ∧
      withFlag p .v true = p ||| 0x40#8 ∧ withFlag p .n true = p ||| 0x80#8) ∧
    ∀ (f g : Flag) (b : Bool), flagOf (withFlag p f b) g = if g = f then b else flagOf p g
end

