-- ==== Sys2Proof/Laws/Bits.lean ====
section
/-! SUPPORT. Bit fields and byte order: taking a word apart and putting it together, and addresses of the zero and stack pages. -/

namespace Sys2Proof.Machine

@[simp] theorem wordOf_hiByte_loByte (w : Addr) : wordOf (hiByte w) (loByte w) = w := by
  apply BitVec.eq_of_toNat_eq
  simp only [wordOf, hiByte, loByte, BitVec.toNat_append, BitVec.extractLsb'_toNat]
  have := w.isLt
  rw [← Nat.shiftLeft_add_eq_or_of_lt (by omega)]
  simp only [Nat.shiftLeft_eq, Nat.shiftRight_eq_div_pow]
  omega

@[simp] theorem hiByte_wordOf (hi lo : Byte) : hiByte (wordOf hi lo) = hi := by
  apply BitVec.eq_of_toNat_eq
  simp only [wordOf, hiByte, BitVec.toNat_append, BitVec.extractLsb'_toNat]
  have := hi.isLt
  have := lo.isLt
  rw [← Nat.shiftLeft_add_eq_or_of_lt lo.isLt]
  simp only [Nat.shiftLeft_eq, Nat.shiftRight_eq_div_pow]
  omega

@[simp] theorem loByte_wordOf (hi lo : Byte) : loByte (wordOf hi lo) = lo := by
  apply BitVec.eq_of_toNat_eq
  simp only [wordOf, loByte, BitVec.toNat_append, BitVec.extractLsb'_toNat]
  have := hi.isLt
  have := lo.isLt
  rw [← Nat.shiftLeft_add_eq_or_of_lt lo.isLt]
  simp only [Nat.shiftLeft_eq, Nat.shiftRight_eq_div_pow]
  omega

theorem wordOf_toNat (hi lo : Byte) : (wordOf hi lo).toNat = 256 * hi.toNat + lo.toNat := by
  rw [wordOf, BitVec.toNat_append, ← Nat.shiftLeft_add_eq_or_of_lt lo.isLt, Nat.shiftLeft_eq]
  omega

/-- A stack slot is the byte `sp` of page 1 (R113). -/
theorem stackSlot_eq_wordOf (sp : Byte) : stackSlot sp = wordOf 0x01#8 sp := by
  revert sp
  decide

theorem stackSlot_toNat (sp : Byte) : (stackSlot sp).toNat = 256 + sp.toNat := by
  rw [stackSlot_eq_wordOf, wordOf_toNat]
  rfl

/-- Different stack pointers have different slots (R113). -/
@[simp] theorem stackSlot_inj {p q : Byte} : stackSlot p = stackSlot q ↔ p = q := by
  constructor
  · intro h
    have := congrArg BitVec.toNat h
    simp only [stackSlot_toNat] at this
    exact BitVec.eq_of_toNat_eq (by omega)
  · intro h
    rw [h]

/-- No stack slot is a byte of the BRK vector (R56, R113). -/
theorem stackSlot_ne_vector (sp : Byte) : stackSlot sp ≠ 0xFFFE#16 ∧ stackSlot sp ≠ 0xFFFF#16 := by
  have := sp.isLt
  constructor <;> intro h <;> have h := congrArg BitVec.toNat h <;> rw [stackSlot_toNat] at h <;> simp at h <;> omega

/-- Every stack slot lies below the bus split, so it is RAM (R113). -/
@[simp] theorem stackSlot_lt_busSplit (sp : Byte) : stackSlot sp < Config.busSplit := by
  rw [BitVec.lt_def, stackSlot_toNat]
  have := sp.isLt
  show _ < 32768
  omega

end Sys2Proof.Machine
end

