-- ==== Sys2Proof/Laws/Decode.lean ====
section
/-! SUPPORT. The opcode table entry by entry, and what every entry says of the words it stands for. -/

namespace Sys2Proof

@[simp] theorem opcodeEntry_brk : opcodeEntry 0x00#8 = .plain .brk := rfl
@[simp] theorem opcodeEntry_oraIndx : opcodeEntry 0x01#8 = .byte .oraIndx := rfl
@[simp] theorem opcodeEntry_oraZp : opcodeEntry 0x05#8 = .byte .oraZp := rfl
@[simp] theorem opcodeEntry_aslZp : opcodeEntry 0x06#8 = .byte .aslZp := rfl
@[simp] theorem opcodeEntry_php : opcodeEntry 0x08#8 = .plain .php := rfl
@[simp] theorem opcodeEntry_oraImm : opcodeEntry 0x09#8 = .byte .oraImm := rfl
@[simp] theorem opcodeEntry_aslAcc : opcodeEntry 0x0A#8 = .plain .aslAcc := rfl
@[simp] theorem opcodeEntry_oraAbs : opcodeEntry 0x0D#8 = .word .oraAbs := rfl
@[simp] theorem opcodeEntry_aslAbs : opcodeEntry 0x0E#8 = .word .aslAbs := rfl
@[simp] theorem opcodeEntry_bpl : opcodeEntry 0x10#8 = .byte .bpl := rfl
@[simp] theorem opcodeEntry_oraIndy : opcodeEntry 0x11#8 = .byte .oraIndy := rfl
@[simp] theorem opcodeEntry_oraZpx : opcodeEntry 0x15#8 = .byte .oraZpx := rfl
@[simp] theorem opcodeEntry_aslZpx : opcodeEntry 0x16#8 = .byte .aslZpx := rfl
@[simp] theorem opcodeEntry_clc : opcodeEntry 0x18#8 = .plain .clc := rfl
@[simp] theorem opcodeEntry_oraAbsy : opcodeEntry 0x19#8 = .word .oraAbsy := rfl
@[simp] theorem opcodeEntry_oraAbsx : opcodeEntry 0x1D#8 = .word .oraAbsx := rfl
@[simp] theorem opcodeEntry_aslAbsx : opcodeEntry 0x1E#8 = .word .aslAbsx := rfl
@[simp] theorem opcodeEntry_jsr : opcodeEntry 0x20#8 = .word .jsr := rfl
@[simp] theorem opcodeEntry_andIndx : opcodeEntry 0x21#8 = .byte .andIndx := rfl
@[simp] theorem opcodeEntry_bitZp : opcodeEntry 0x24#8 = .byte .bitZp := rfl
@[simp] theorem opcodeEntry_andZp : opcodeEntry 0x25#8 = .byte .andZp := rfl
@[simp] theorem opcodeEntry_rolZp : opcodeEntry 0x26#8 = .byte .rolZp := rfl
@[simp] theorem opcodeEntry_plp : opcodeEntry 0x28#8 = .plain .plp := rfl
@[simp] theorem opcodeEntry_andImm : opcodeEntry 0x29#8 = .byte .andImm := rfl
@[simp] theorem opcodeEntry_rolAcc : opcodeEntry 0x2A#8 = .plain .rolAcc := rfl
@[simp] theorem opcodeEntry_bitAbs : opcodeEntry 0x2C#8 = .word .bitAbs := rfl
@[simp] theorem opcodeEntry_andAbs : opcodeEntry 0x2D#8 = .word .andAbs := rfl
@[simp] theorem opcodeEntry_rolAbs : opcodeEntry 0x2E#8 = .word .rolAbs := rfl
@[simp] theorem opcodeEntry_bmi : opcodeEntry 0x30#8 = .byte .bmi := rfl
@[simp] theorem opcodeEntry_andIndy : opcodeEntry 0x31#8 = .byte .andIndy := rfl
@[simp] theorem opcodeEntry_andZpx : opcodeEntry 0x35#8 = .byte .andZpx := rfl
@[simp] theorem opcodeEntry_rolZpx : opcodeEntry 0x36#8 = .byte .rolZpx := rfl
@[simp] theorem opcodeEntry_sec : opcodeEntry 0x38#8 = .plain .sec := rfl
@[simp] theorem opcodeEntry_andAbsy : opcodeEntry 0x39#8 = .word .andAbsy := rfl
@[simp] theorem opcodeEntry_andAbsx : opcodeEntry 0x3D#8 = .word .andAbsx := rfl
@[simp] theorem opcodeEntry_rolAbsx : opcodeEntry 0x3E#8 = .word .rolAbsx := rfl
@[simp] theorem opcodeEntry_rti : opcodeEntry 0x40#8 = .plain .rti := rfl
@[simp] theorem opcodeEntry_eorIndx : opcodeEntry 0x41#8 = .byte .eorIndx := rfl
@[simp] theorem opcodeEntry_eorZp : opcodeEntry 0x45#8 = .byte .eorZp := rfl
@[simp] theorem opcodeEntry_lsrZp : opcodeEntry 0x46#8 = .byte .lsrZp := rfl
@[simp] theorem opcodeEntry_pha : opcodeEntry 0x48#8 = .plain .pha := rfl
@[simp] theorem opcodeEntry_eorImm : opcodeEntry 0x49#8 = .byte .eorImm := rfl
@[simp] theorem opcodeEntry_lsrAcc : opcodeEntry 0x4A#8 = .plain .lsrAcc := rfl
@[simp] theorem opcodeEntry_jmpAbs : opcodeEntry 0x4C#8 = .word .jmpAbs := rfl
@[simp] theorem opcodeEntry_eorAbs : opcodeEntry 0x4D#8 = .word .eorAbs := rfl
@[simp] theorem opcodeEntry_lsrAbs : opcodeEntry 0x4E#8 = .word .lsrAbs := rfl
@[simp] theorem opcodeEntry_bvc : opcodeEntry 0x50#8 = .byte .bvc := rfl
@[simp] theorem opcodeEntry_eorIndy : opcodeEntry 0x51#8 = .byte .eorIndy := rfl
@[simp] theorem opcodeEntry_eorZpx : opcodeEntry 0x55#8 = .byte .eorZpx := rfl
@[simp] theorem opcodeEntry_lsrZpx : opcodeEntry 0x56#8 = .byte .lsrZpx := rfl
@[simp] theorem opcodeEntry_cli : opcodeEntry 0x58#8 = .plain .cli := rfl
@[simp] theorem opcodeEntry_eorAbsy : opcodeEntry 0x59#8 = .word .eorAbsy := rfl
@[simp] theorem opcodeEntry_eorAbsx : opcodeEntry 0x5D#8 = .word .eorAbsx := rfl
@[simp] theorem opcodeEntry_lsrAbsx : opcodeEntry 0x5E#8 = .word .lsrAbsx := rfl
@[simp] theorem opcodeEntry_rts : opcodeEntry 0x60#8 = .plain .rts := rfl
@[simp] theorem opcodeEntry_adcIndx : opcodeEntry 0x61#8 = .byte .adcIndx := rfl
@[simp] theorem opcodeEntry_adcZp : opcodeEntry 0x65#8 = .byte .adcZp := rfl
@[simp] theorem opcodeEntry_rorZp : opcodeEntry 0x66#8 = .byte .rorZp := rfl
@[simp] theorem opcodeEntry_pla : opcodeEntry 0x68#8 = .plain .pla := rfl
@[simp] theorem opcodeEntry_adcImm : opcodeEntry 0x69#8 = .byte .adcImm := rfl
@[simp] theorem opcodeEntry_rorAcc : opcodeEntry 0x6A#8 = .plain .rorAcc := rfl
@[simp] theorem opcodeEntry_jmpInd : opcodeEntry 0x6C#8 = .word .jmpInd := rfl
@[simp] theorem opcodeEntry_adcAbs : opcodeEntry 0x6D#8 = .word .adcAbs := rfl
@[simp] theorem opcodeEntry_rorAbs : opcodeEntry 0x6E#8 = .word .rorAbs := rfl
@[simp] theorem opcodeEntry_bvs : opcodeEntry 0x70#8 = .byte .bvs := rfl
@[simp] theorem opcodeEntry_adcIndy : opcodeEntry 0x71#8 = .byte .adcIndy := rfl
@[simp] theorem opcodeEntry_adcZpx : opcodeEntry 0x75#8 = .byte .adcZpx := rfl
@[simp] theorem opcodeEntry_rorZpx : opcodeEntry 0x76#8 = .byte .rorZpx := rfl
@[simp] theorem opcodeEntry_sei : opcodeEntry 0x78#8 = .plain .sei := rfl
@[simp] theorem opcodeEntry_adcAbsy : opcodeEntry 0x79#8 = .word .adcAbsy := rfl
@[simp] theorem opcodeEntry_adcAbsx : opcodeEntry 0x7D#8 = .word .adcAbsx := rfl
@[simp] theorem opcodeEntry_rorAbsx : opcodeEntry 0x7E#8 = .word .rorAbsx := rfl
@[simp] theorem opcodeEntry_staIndx : opcodeEntry 0x81#8 = .byte .staIndx := rfl
@[simp] theorem opcodeEntry_styZp : opcodeEntry 0x84#8 = .byte .styZp := rfl
@[simp] theorem opcodeEntry_staZp : opcodeEntry 0x85#8 = .byte .staZp := rfl
@[simp] theorem opcodeEntry_stxZp : opcodeEntry 0x86#8 = .byte .stxZp := rfl
@[simp] theorem opcodeEntry_dey : opcodeEntry 0x88#8 = .plain .dey := rfl
@[simp] theorem opcodeEntry_txa : opcodeEntry 0x8A#8 = .plain .txa := rfl
@[simp] theorem opcodeEntry_styAbs : opcodeEntry 0x8C#8 = .word .styAbs := rfl
@[simp] theorem opcodeEntry_staAbs : opcodeEntry 0x8D#8 = .word .staAbs := rfl
@[simp] theorem opcodeEntry_stxAbs : opcodeEntry 0x8E#8 = .word .stxAbs := rfl
@[simp] theorem opcodeEntry_bcc : opcodeEntry 0x90#8 = .byte .bcc := rfl
@[simp] theorem opcodeEntry_staIndy : opcodeEntry 0x91#8 = .byte .staIndy := rfl
@[simp] theorem opcodeEntry_styZpx : opcodeEntry 0x94#8 = .byte .styZpx := rfl
@[simp] theorem opcodeEntry_staZpx : opcodeEntry 0x95#8 = .byte .staZpx := rfl
@[simp] theorem opcodeEntry_stxZpy : opcodeEntry 0x96#8 = .byte .stxZpy := rfl
@[simp] theorem opcodeEntry_tya : opcodeEntry 0x98#8 = .plain .tya := rfl
@[simp] theorem opcodeEntry_staAbsy : opcodeEntry 0x99#8 = .word .staAbsy := rfl
@[simp] theorem opcodeEntry_txs : opcodeEntry 0x9A#8 = .plain .txs := rfl
@[simp] theorem opcodeEntry_staAbsx : opcodeEntry 0x9D#8 = .word .staAbsx := rfl
@[simp] theorem opcodeEntry_ldyImm : opcodeEntry 0xA0#8 = .byte .ldyImm := rfl
@[simp] theorem opcodeEntry_ldaIndx : opcodeEntry 0xA1#8 = .byte .ldaIndx := rfl
@[simp] theorem opcodeEntry_ldxImm : opcodeEntry 0xA2#8 = .byte .ldxImm := rfl
@[simp] theorem opcodeEntry_ldyZp : opcodeEntry 0xA4#8 = .byte .ldyZp := rfl
@[simp] theorem opcodeEntry_ldaZp : opcodeEntry 0xA5#8 = .byte .ldaZp := rfl
@[simp] theorem opcodeEntry_ldxZp : opcodeEntry 0xA6#8 = .byte .ldxZp := rfl
@[simp] theorem opcodeEntry_tay : opcodeEntry 0xA8#8 = .plain .tay := rfl
@[simp] theorem opcodeEntry_ldaImm : opcodeEntry 0xA9#8 = .byte .ldaImm := rfl
@[simp] theorem opcodeEntry_tax : opcodeEntry 0xAA#8 = .plain .tax := rfl
@[simp] theorem opcodeEntry_ldyAbs : opcodeEntry 0xAC#8 = .word .ldyAbs := rfl
@[simp] theorem opcodeEntry_ldaAbs : opcodeEntry 0xAD#8 = .word .ldaAbs := rfl
@[simp] theorem opcodeEntry_ldxAbs : opcodeEntry 0xAE#8 = .word .ldxAbs := rfl
@[simp] theorem opcodeEntry_bcs : opcodeEntry 0xB0#8 = .byte .bcs := rfl
@[simp] theorem opcodeEntry_ldaIndy : opcodeEntry 0xB1#8 = .byte .ldaIndy := rfl
@[simp] theorem opcodeEntry_ldyZpx : opcodeEntry 0xB4#8 = .byte .ldyZpx := rfl
@[simp] theorem opcodeEntry_ldaZpx : opcodeEntry 0xB5#8 = .byte .ldaZpx := rfl
@[simp] theorem opcodeEntry_ldxZpy : opcodeEntry 0xB6#8 = .byte .ldxZpy := rfl
@[simp] theorem opcodeEntry_clv : opcodeEntry 0xB8#8 = .plain .clv := rfl
@[simp] theorem opcodeEntry_ldaAbsy : opcodeEntry 0xB9#8 = .word .ldaAbsy := rfl
@[simp] theorem opcodeEntry_tsx : opcodeEntry 0xBA#8 = .plain .tsx := rfl
@[simp] theorem opcodeEntry_ldyAbsx : opcodeEntry 0xBC#8 = .word .ldyAbsx := rfl
@[simp] theorem opcodeEntry_ldaAbsx : opcodeEntry 0xBD#8 = .word .ldaAbsx := rfl
@[simp] theorem opcodeEntry_ldxAbsy : opcodeEntry 0xBE#8 = .word .ldxAbsy := rfl
@[simp] theorem opcodeEntry_cpyImm : opcodeEntry 0xC0#8 = .byte .cpyImm := rfl
@[simp] theorem opcodeEntry_cmpIndx : opcodeEntry 0xC1#8 = .byte .cmpIndx := rfl
@[simp] theorem opcodeEntry_cpyZp : opcodeEntry 0xC4#8 = .byte .cpyZp := rfl
@[simp] theorem opcodeEntry_cmpZp : opcodeEntry 0xC5#8 = .byte .cmpZp := rfl
@[simp] theorem opcodeEntry_decZp : opcodeEntry 0xC6#8 = .byte .decZp := rfl
@[simp] theorem opcodeEntry_iny : opcodeEntry 0xC8#8 = .plain .iny := rfl
@[simp] theorem opcodeEntry_cmpImm : opcodeEntry 0xC9#8 = .byte .cmpImm := rfl
@[simp] theorem opcodeEntry_dex : opcodeEntry 0xCA#8 = .plain .dex := rfl
@[simp] theorem opcodeEntry_cpyAbs : opcodeEntry 0xCC#8 = .word .cpyAbs := rfl
@[simp] theorem opcodeEntry_cmpAbs : opcodeEntry 0xCD#8 = .word .cmpAbs := rfl
@[simp] theorem opcodeEntry_decAbs : opcodeEntry 0xCE#8 = .word .decAbs := rfl
@[simp] theorem opcodeEntry_bne : opcodeEntry 0xD0#8 = .byte .bne := rfl
@[simp] theorem opcodeEntry_cmpIndy : opcodeEntry 0xD1#8 = .byte .cmpIndy := rfl
@[simp] theorem opcodeEntry_cmpZpx : opcodeEntry 0xD5#8 = .byte .cmpZpx := rfl
@[simp] theorem opcodeEntry_decZpx : opcodeEntry 0xD6#8 = .byte .decZpx := rfl
@[simp] theorem opcodeEntry_cld : opcodeEntry 0xD8#8 = .plain .cld := rfl
@[simp] theorem opcodeEntry_cmpAbsy : opcodeEntry 0xD9#8 = .word .cmpAbsy := rfl
@[simp] theorem opcodeEntry_cmpAbsx : opcodeEntry 0xDD#8 = .word .cmpAbsx := rfl
@[simp] theorem opcodeEntry_decAbsx : opcodeEntry 0xDE#8 = .word .decAbsx := rfl
@[simp] theorem opcodeEntry_cpxImm : opcodeEntry 0xE0#8 = .byte .cpxImm := rfl
@[simp] theorem opcodeEntry_sbcIndx : opcodeEntry 0xE1#8 = .byte .sbcIndx := rfl
@[simp] theorem opcodeEntry_cpxZp : opcodeEntry 0xE4#8 = .byte .cpxZp := rfl
@[simp] theorem opcodeEntry_sbcZp : opcodeEntry 0xE5#8 = .byte .sbcZp := rfl
@[simp] theorem opcodeEntry_incZp : opcodeEntry 0xE6#8 = .byte .incZp := rfl
@[simp] theorem opcodeEntry_inx : opcodeEntry 0xE8#8 = .plain .inx := rfl
@[simp] theorem opcodeEntry_sbcImm : opcodeEntry 0xE9#8 = .byte .sbcImm := rfl
@[simp] theorem opcodeEntry_nop : opcodeEntry 0xEA#8 = .plain .nop := rfl
@[simp] theorem opcodeEntry_cpxAbs : opcodeEntry 0xEC#8 = .word .cpxAbs := rfl
@[simp] theorem opcodeEntry_sbcAbs : opcodeEntry 0xED#8 = .word .sbcAbs := rfl
@[simp] theorem opcodeEntry_incAbs : opcodeEntry 0xEE#8 = .word .incAbs := rfl
@[simp] theorem opcodeEntry_beq : opcodeEntry 0xF0#8 = .byte .beq := rfl
@[simp] theorem opcodeEntry_sbcIndy : opcodeEntry 0xF1#8 = .byte .sbcIndy := rfl
@[simp] theorem opcodeEntry_sbcZpx : opcodeEntry 0xF5#8 = .byte .sbcZpx := rfl
@[simp] theorem opcodeEntry_incZpx : opcodeEntry 0xF6#8 = .byte .incZpx := rfl
@[simp] theorem opcodeEntry_sed : opcodeEntry 0xF8#8 = .plain .sed := rfl
@[simp] theorem opcodeEntry_sbcAbsy : opcodeEntry 0xF9#8 = .word .sbcAbsy := rfl
@[simp] theorem opcodeEntry_sbcAbsx : opcodeEntry 0xFD#8 = .word .sbcAbsx := rfl
@[simp] theorem opcodeEntry_incAbsx : opcodeEntry 0xFE#8 = .word .incAbsx := rfl

/-- An entry is sound for a byte: what it builds is well formed, starts with the byte, and is as long as its format. -/
def OpcodeEntry.soundFor (op : Byte) : OpcodeEntry → Prop
  | .plain i => encode i = [op] ∧ i.wellFormed = true ∧ i.format.length = 1
  | .byte f => ∀ b, encode (f b) = [op, b] ∧ (f b).wellFormed = true ∧ (f b).format.length = 2
  | .word f => ∀ w, encode (f w) = op :: wordBytes w ∧ (f w).wellFormed = true ∧ (f w).format.length = 3

/-- Every entry of the table is sound for its byte (R61, R62, R65, R66). -/
theorem opcodeEntry_sound (op : Byte) : (opcodeEntry op).soundFor op := by
  have all : ∀ n < 256, (opcodeEntry (BitVec.ofNat 8 n)).soundFor (BitVec.ofNat 8 n) := by
    intro n hn
    interval_cases n <;> first | exact ⟨rfl, rfl, rfl⟩ | exact fun _ => ⟨rfl, rfl, rfl⟩
  have h := all op.toNat op.isLt
  rwa [BitVec.ofNat_toNat, BitVec.setWidth_eq] at h

end Sys2Proof
end

