-- ==== Sys2Proof/Laws/Flags.lean ====
section
/-! SUPPORT. What each write of the status does to each of its bits. -/

namespace Sys2Proof.Machine

@[simp] theorem flagOf_withFlag (p : Byte) (f g : Flag) (b : Bool) :
    flagOf (withFlag p f b) g = if g = f then b else flagOf p g := by
  cases f <;> cases g <;> cases b <;> simp [flagOf, withFlag, Flag.bit, Flag.mask]

@[simp] theorem flagOf_withZN (p v : Byte) (g : Flag) :
    flagOf (withZN p v) g = if g = .n then v.getLsbD 7 else if g = .z then v == 0#8 else flagOf p g := by
  simp [withZN]

@[simp] theorem flagOf_pushedStatus (p : Byte) (g : Flag) :
    flagOf (pushedStatus p) g = if g = .b ∨ g = .u then true else flagOf p g := by
  cases g <;> simp [flagOf, pushedStatus, Flag.bit]

@[simp] theorem flagOf_pulledStatus (p : Byte) (g : Flag) :
    flagOf (pulledStatus p) g = if g = .b then false else if g = .u then true else flagOf p g := by
  cases g <;> simp [flagOf, pulledStatus, Flag.bit]

/-- Two status values with the same eight bits are equal. -/
theorem status_ext {p q : Byte} (h : ∀ f, flagOf p f = flagOf q f) : p = q := by
  apply BitVec.eq_of_getLsbD_eq
  intro i hi
  have h0 := h .c
  have h1 := h .z
  have h2 := h .i
  have h3 := h .d
  have h4 := h .b
  have h5 := h .u
  have h6 := h .v
  have h7 := h .n
  simp only [flagOf, Flag.bit] at h0 h1 h2 h3 h4 h5 h6 h7
  interval_cases i <;> assumption

end Sys2Proof.Machine
end

