-- ==== Sys2Proof/Laws/Memory.lean ====
section
/-! SUPPORT. A memory reads back what was written and nothing else changes, and every operation keeps the canonical form. -/

namespace Sys2Proof.Machine

theorem Memory.read_filter_same (m : Memory) (i : Nat) :
    Memory.read (m.filter (fun c => c.1 != i)) i = Config.unlistedByte := by
  induction m with
  | nil => rfl
  | cons c m ih =>
    by_cases h : c.1 = i
    · simpa [List.filter, h] using ih
    · have hb : (c.1 != i) = true := by simp [h]
      simp [List.filter, hb, Memory.read, h, ih]

theorem Memory.read_filter_other (m : Memory) {i j : Nat} (h : j ≠ i) :
    Memory.read (m.filter (fun c => c.1 != i)) j = m.read j := by
  induction m with
  | nil => rfl
  | cons c m ih =>
    by_cases hc : c.1 = i
    · have hj : ¬ i = j := fun e => h e.symm
      simp [List.filter, hc, Memory.read, hj, ih]
    · have hb : (c.1 != i) = true := by simp [hc]
      simp [List.filter, hb, Memory.read, ih]

theorem Memory.read_insertCell_same (m : Memory) (i : Nat) (v : Byte) (h : ∀ c ∈ m, c.1 ≠ i) :
    Memory.read (m.insertCell i v) i = v := by
  induction m with
  | nil => simp [Memory.insertCell, Memory.read]
  | cons c m ih =>
    have hc : ¬ c.1 = i := h c (by simp)
    unfold Memory.insertCell
    split
    · simp [Memory.read]
    · simp only [Memory.read, hc, if_false]
      exact ih (fun d hd => h d (by simp [hd]))

theorem Memory.read_insertCell_other (m : Memory) {i j : Nat} (v : Byte) (h : j ≠ i) :
    Memory.read (m.insertCell i v) j = m.read j := by
  have hj : ¬ i = j := fun e => h e.symm
  induction m with
  | nil => simp [Memory.insertCell, Memory.read, hj]
  | cons c m ih =>
    unfold Memory.insertCell
    split
    · simp [Memory.read, hj]
    · simp [Memory.read, ih]

/-- A write reads back, whatever the memory. -/
@[simp] theorem Memory.read_write_same (m : Memory) (i : Nat) (v : Byte) : (m.write i v).read i = v := by
  unfold Memory.write
  dsimp only
  split
  · next h => rw [Memory.read_filter_same, h]
  · apply Memory.read_insertCell_same
    intro c hc
    have := (List.mem_filter.mp hc).2
    simpa using this

/-- A write leaves every other index alone, whatever the memory. -/
@[simp] theorem Memory.read_write_other (m : Memory) {i j : Nat} (v : Byte) (h : j ≠ i) :
    (m.write i v).read j = m.read j := by
  unfold Memory.write
  dsimp only
  split
  · exact Memory.read_filter_other m h
  · rw [Memory.read_insertCell_other _ _ h, Memory.read_filter_other m h]

theorem Memory.read_write (m : Memory) (i j : Nat) (v : Byte) :
    (m.write i v).read j = if j = i then v else m.read j := by
  by_cases h : j = i
  · simp [h]
  · simp [h]

theorem Memory.wfFrom_mono {size low low' : Nat} {m : Memory} (hl : low' ≤ low) (h : Memory.wfFrom size low m = true) :
    Memory.wfFrom size low' m = true := by
  cases m with
  | nil => rfl
  | cons c m =>
    simp only [Memory.wfFrom, Bool.and_eq_true, decide_eq_true_eq] at h ⊢
    exact ⟨⟨⟨le_trans hl h.1.1.1, h.1.1.2⟩, h.1.2⟩, h.2⟩

theorem Memory.wfFrom_filter {size low : Nat} {m : Memory} (i : Nat) (h : Memory.wfFrom size low m = true) :
    Memory.wfFrom size low (m.filter (fun c => c.1 != i)) = true := by
  induction m generalizing low with
  | nil => rfl
  | cons c m ih =>
    simp only [Memory.wfFrom, Bool.and_eq_true, decide_eq_true_eq] at h
    by_cases hc : c.1 = i
    · have hb : (c.1 != i) = false := by simp [hc]
      rw [List.filter_cons_of_neg (by simp [hb])]
      exact ih (Memory.wfFrom_mono (by omega) h.2)
    · rw [List.filter_cons_of_pos (by simp [hc])]
      simp only [Memory.wfFrom, Bool.and_eq_true, decide_eq_true_eq]
      exact ⟨h.1, ih h.2⟩

theorem Memory.wfFrom_insertCell {size low : Nat} {m : Memory} {i : Nat} {v : Byte} (hi : i < size) (hl : low ≤ i)
    (hv : v ≠ Config.unlistedByte) (hn : ∀ c ∈ m, c.1 ≠ i) (h : Memory.wfFrom size low m = true) :
    Memory.wfFrom size low (m.insertCell i v) = true := by
  induction m generalizing low with
  | nil => simp [Memory.insertCell, Memory.wfFrom, hi, hl, hv]
  | cons c m ih =>
    simp only [Memory.wfFrom, Bool.and_eq_true, decide_eq_true_eq] at h
    unfold Memory.insertCell
    split
    · next hlt =>
      simp only [Memory.wfFrom, Bool.and_eq_true, decide_eq_true_eq]
      exact ⟨⟨⟨hl, hi⟩, hv⟩, ⟨⟨by omega, h.1.1.2⟩, h.1.2⟩, h.2⟩
    · next hge =>
      have hne : c.1 ≠ i := hn c (by simp)
      simp only [Memory.wfFrom, Bool.and_eq_true, decide_eq_true_eq]
      exact ⟨h.1, ih (by omega) (fun d hd => hn d (by simp [hd])) h.2⟩

/-- A write below the size keeps the canonical form. -/
theorem Memory.wf_write {size : Nat} {m : Memory} {i : Nat} (v : Byte) (hi : i < size) (h : m.wf size = true) :
    (m.write i v).wf size = true := by
  unfold Memory.write
  dsimp only
  split
  · exact Memory.wfFrom_filter i h
  · next hv =>
    refine Memory.wfFrom_insertCell hi (Nat.zero_le _) hv ?_ (Memory.wfFrom_filter i h)
    intro c hc
    have := (List.mem_filter.mp hc).2
    simpa using this

theorem Memory.wfFrom_ofBytesFrom (size : Nat) (bs : List Byte) (i : Nat) (h : i + bs.length ≤ size) :
    Memory.wfFrom size i (Memory.ofBytesFrom i bs) = true := by
  induction bs generalizing i with
  | nil => rfl
  | cons b bs ih =>
    simp only [List.length_cons] at h
    unfold Memory.ofBytesFrom
    split
    · exact Memory.wfFrom_mono (Nat.le_succ i) (ih (i + 1) (by omega))
    · next hb =>
      simp only [Memory.wfFrom, Bool.and_eq_true, decide_eq_true_eq]
      exact ⟨⟨⟨le_refl _, by omega⟩, hb⟩, ih (i + 1) (by omega)⟩

/-- A loaded image is in canonical form. -/
theorem Memory.wf_ofBytes {size : Nat} {bs : List Byte} (h : bs.length ≤ size) : (Memory.ofBytes bs).wf size = true :=
  Memory.wfFrom_ofBytesFrom size bs 0 (by omega)

end Sys2Proof.Machine
end

