-- ==== Sys2Proof/Laws/State.lean ====
section
/-! SUPPORT. One lemma per field of the state per update, each true by definition, so that no proof unfolds a record update.
The last block does the same for a register whose name is a variable. -/

namespace Sys2Proof.Machine

@[simp] theorem State.record_pc (s : State) (e : Access) : (s.record e).pc = s.pc := rfl
@[simp] theorem State.record_sp (s : State) (e : Access) : (s.record e).sp = s.sp := rfl
@[simp] theorem State.record_a (s : State) (e : Access) : (s.record e).a = s.a := rfl
@[simp] theorem State.record_x (s : State) (e : Access) : (s.record e).x = s.x := rfl
@[simp] theorem State.record_y (s : State) (e : Access) : (s.record e).y = s.y := rfl
@[simp] theorem State.record_status (s : State) (e : Access) : (s.record e).status = s.status := rfl
@[simp] theorem State.record_bus (s : State) (e : Access) : (s.record e).bus = s.bus := rfl
@[simp] theorem State.record_ram (s : State) (e : Access) : (s.record e).ram = s.ram := rfl
@[simp] theorem State.record_prg (s : State) (e : Access) : (s.record e).prg = s.prg := rfl
@[simp] theorem State.record_events (s : State) (e : Access) : (s.record e).events = s.events := rfl
@[simp] theorem State.record_cycles (s : State) (e : Access) : (s.record e).cycles = s.cycles := rfl
@[simp] theorem State.record_accesses (s : State) (e : Access) : (s.record e).accesses = s.accesses ++ [e] := rfl

@[simp] theorem State.jump_pc (s : State) (t : Addr) : (s.jump t).pc = t := rfl
@[simp] theorem State.jump_sp (s : State) (t : Addr) : (s.jump t).sp = s.sp := rfl
@[simp] theorem State.jump_a (s : State) (t : Addr) : (s.jump t).a = s.a := rfl
@[simp] theorem State.jump_x (s : State) (t : Addr) : (s.jump t).x = s.x := rfl
@[simp] theorem State.jump_y (s : State) (t : Addr) : (s.jump t).y = s.y := rfl
@[simp] theorem State.jump_status (s : State) (t : Addr) : (s.jump t).status = s.status := rfl
@[simp] theorem State.jump_bus (s : State) (t : Addr) : (s.jump t).bus = s.bus := rfl
@[simp] theorem State.jump_ram (s : State) (t : Addr) : (s.jump t).ram = s.ram := rfl
@[simp] theorem State.jump_prg (s : State) (t : Addr) : (s.jump t).prg = s.prg := rfl
@[simp] theorem State.jump_events (s : State) (t : Addr) : (s.jump t).events = s.events := rfl
@[simp] theorem State.jump_cycles (s : State) (t : Addr) : (s.jump t).cycles = s.cycles := rfl
@[simp] theorem State.jump_accesses (s : State) (t : Addr) : (s.jump t).accesses = s.accesses := rfl

@[simp] theorem State.setStatus_pc (s : State) (p : Byte) : (s.setStatus p).pc = s.pc := rfl
@[simp] theorem State.setStatus_sp (s : State) (p : Byte) : (s.setStatus p).sp = s.sp := rfl
@[simp] theorem State.setStatus_a (s : State) (p : Byte) : (s.setStatus p).a = s.a := rfl
@[simp] theorem State.setStatus_x (s : State) (p : Byte) : (s.setStatus p).x = s.x := rfl
@[simp] theorem State.setStatus_y (s : State) (p : Byte) : (s.setStatus p).y = s.y := rfl
@[simp] theorem State.setStatus_status (s : State) (p : Byte) : (s.setStatus p).status = p := rfl
@[simp] theorem State.setStatus_bus (s : State) (p : Byte) : (s.setStatus p).bus = s.bus := rfl
@[simp] theorem State.setStatus_ram (s : State) (p : Byte) : (s.setStatus p).ram = s.ram := rfl
@[simp] theorem State.setStatus_prg (s : State) (p : Byte) : (s.setStatus p).prg = s.prg := rfl
@[simp] theorem State.setStatus_events (s : State) (p : Byte) : (s.setStatus p).events = s.events := rfl
@[simp] theorem State.setStatus_cycles (s : State) (p : Byte) : (s.setStatus p).cycles = s.cycles := rfl
@[simp] theorem State.setStatus_accesses (s : State) (p : Byte) : (s.setStatus p).accesses = s.accesses := rfl

@[simp] theorem State.setZN_pc (s : State) (v : Byte) : (s.setZN v).pc = s.pc := rfl
@[simp] theorem State.setZN_sp (s : State) (v : Byte) : (s.setZN v).sp = s.sp := rfl
@[simp] theorem State.setZN_a (s : State) (v : Byte) : (s.setZN v).a = s.a := rfl
@[simp] theorem State.setZN_x (s : State) (v : Byte) : (s.setZN v).x = s.x := rfl
@[simp] theorem State.setZN_y (s : State) (v : Byte) : (s.setZN v).y = s.y := rfl
@[simp] theorem State.setZN_status (s : State) (v : Byte) : (s.setZN v).status = withZN s.status v := rfl
@[simp] theorem State.setZN_bus (s : State) (v : Byte) : (s.setZN v).bus = s.bus := rfl
@[simp] theorem State.setZN_ram (s : State) (v : Byte) : (s.setZN v).ram = s.ram := rfl
@[simp] theorem State.setZN_prg (s : State) (v : Byte) : (s.setZN v).prg = s.prg := rfl
@[simp] theorem State.setZN_events (s : State) (v : Byte) : (s.setZN v).events = s.events := rfl
@[simp] theorem State.setZN_cycles (s : State) (v : Byte) : (s.setZN v).cycles = s.cycles := rfl
@[simp] theorem State.setZN_accesses (s : State) (v : Byte) : (s.setZN v).accesses = s.accesses := rfl

@[simp] theorem State.setFlag_pc (s : State) (f : Flag) (b : Bool) : (s.setFlag f b).pc = s.pc := rfl
@[simp] theorem State.setFlag_sp (s : State) (f : Flag) (b : Bool) : (s.setFlag f b).sp = s.sp := rfl
@[simp] theorem State.setFlag_a (s : State) (f : Flag) (b : Bool) : (s.setFlag f b).a = s.a := rfl
@[simp] theorem State.setFlag_x (s : State) (f : Flag) (b : Bool) : (s.setFlag f b).x = s.x := rfl
@[simp] theorem State.setFlag_y (s : State) (f : Flag) (b : Bool) : (s.setFlag f b).y = s.y := rfl
@[simp] theorem State.setFlag_status (s : State) (f : Flag) (b : Bool) : (s.setFlag f b).status = withFlag s.status f b := rfl
@[simp] theorem State.setFlag_bus (s : State) (f : Flag) (b : Bool) : (s.setFlag f b).bus = s.bus := rfl
@[simp] theorem State.setFlag_ram (s : State) (f : Flag) (b : Bool) : (s.setFlag f b).ram = s.ram := rfl
@[simp] theorem State.setFlag_prg (s : State) (f : Flag) (b : Bool) : (s.setFlag f b).prg = s.prg := rfl
@[simp] theorem State.setFlag_events (s : State) (f : Flag) (b : Bool) : (s.setFlag f b).events = s.events := rfl
@[simp] theorem State.setFlag_cycles (s : State) (f : Flag) (b : Bool) : (s.setFlag f b).cycles = s.cycles := rfl
@[simp] theorem State.setFlag_accesses (s : State) (f : Flag) (b : Bool) : (s.setFlag f b).accesses = s.accesses := rfl

@[simp] theorem State.setReg_a_pc (s : State) (v : Byte) : (s.setReg .a v).pc = s.pc := rfl
@[simp] theorem State.setReg_a_sp (s : State) (v : Byte) : (s.setReg .a v).sp = s.sp := rfl
@[simp] theorem State.setReg_a_a (s : State) (v : Byte) : (s.setReg .a v).a = v := rfl
@[simp] theorem State.setReg_a_x (s : State) (v : Byte) : (s.setReg .a v).x = s.x := rfl
@[simp] theorem State.setReg_a_y (s : State) (v : Byte) : (s.setReg .a v).y = s.y := rfl
@[simp] theorem State.setReg_a_status (s : State) (v : Byte) : (s.setReg .a v).status = s.status := rfl
@[simp] theorem State.setReg_a_bus (s : State) (v : Byte) : (s.setReg .a v).bus = s.bus := rfl
@[simp] theorem State.setReg_a_ram (s : State) (v : Byte) : (s.setReg .a v).ram = s.ram := rfl
@[simp] theorem State.setReg_a_prg (s : State) (v : Byte) : (s.setReg .a v).prg = s.prg := rfl
@[simp] theorem State.setReg_a_events (s : State) (v : Byte) : (s.setReg .a v).events = s.events := rfl
@[simp] theorem State.setReg_a_cycles (s : State) (v : Byte) : (s.setReg .a v).cycles = s.cycles := rfl
@[simp] theorem State.setReg_a_accesses (s : State) (v : Byte) : (s.setReg .a v).accesses = s.accesses := rfl

@[simp] theorem State.setReg_x_pc (s : State) (v : Byte) : (s.setReg .x v).pc = s.pc := rfl
@[simp] theorem State.setReg_x_sp (s : State) (v : Byte) : (s.setReg .x v).sp = s.sp := rfl
@[simp] theorem State.setReg_x_a (s : State) (v : Byte) : (s.setReg .x v).a = s.a := rfl
@[simp] theorem State.setReg_x_x (s : State) (v : Byte) : (s.setReg .x v).x = v := rfl
@[simp] theorem State.setReg_x_y (s : State) (v : Byte) : (s.setReg .x v).y = s.y := rfl
@[simp] theorem State.setReg_x_status (s : State) (v : Byte) : (s.setReg .x v).status = s.status := rfl
@[simp] theorem State.setReg_x_bus (s : State) (v : Byte) : (s.setReg .x v).bus = s.bus := rfl
@[simp] theorem State.setReg_x_ram (s : State) (v : Byte) : (s.setReg .x v).ram = s.ram := rfl
@[simp] theorem State.setReg_x_prg (s : State) (v : Byte) : (s.setReg .x v).prg = s.prg := rfl
@[simp] theorem State.setReg_x_events (s : State) (v : Byte) : (s.setReg .x v).events = s.events := rfl
@[simp] theorem State.setReg_x_cycles (s : State) (v : Byte) : (s.setReg .x v).cycles = s.cycles := rfl
@[simp] theorem State.setReg_x_accesses (s : State) (v : Byte) : (s.setReg .x v).accesses = s.accesses := rfl

@[simp] theorem State.setReg_y_pc (s : State) (v : Byte) : (s.setReg .y v).pc = s.pc := rfl
@[simp] theorem State.setReg_y_sp (s : State) (v : Byte) : (s.setReg .y v).sp = s.sp := rfl
@[simp] theorem State.setReg_y_a (s : State) (v : Byte) : (s.setReg .y v).a = s.a := rfl
@[simp] theorem State.setReg_y_x (s : State) (v : Byte) : (s.setReg .y v).x = s.x := rfl
@[simp] theorem State.setReg_y_y (s : State) (v : Byte) : (s.setReg .y v).y = v := rfl
@[simp] theorem State.setReg_y_status (s : State) (v : Byte) : (s.setReg .y v).status = s.status := rfl
@[simp] theorem State.setReg_y_bus (s : State) (v : Byte) : (s.setReg .y v).bus = s.bus := rfl
@[simp] theorem State.setReg_y_ram (s : State) (v : Byte) : (s.setReg .y v).ram = s.ram := rfl
@[simp] theorem State.setReg_y_prg (s : State) (v : Byte) : (s.setReg .y v).prg = s.prg := rfl
@[simp] theorem State.setReg_y_events (s : State) (v : Byte) : (s.setReg .y v).events = s.events := rfl
@[simp] theorem State.setReg_y_cycles (s : State) (v : Byte) : (s.setReg .y v).cycles = s.cycles := rfl
@[simp] theorem State.setReg_y_accesses (s : State) (v : Byte) : (s.setReg .y v).accesses = s.accesses := rfl

@[simp] theorem State.returning_pc (s : State) (n : Byte) : (s.returning n).pc = s.pc := rfl
@[simp] theorem State.returning_sp (s : State) (n : Byte) : (s.returning n).sp = s.sp := rfl
@[simp] theorem State.returning_a (s : State) (n : Byte) : (s.returning n).a = s.a := rfl
@[simp] theorem State.returning_x (s : State) (n : Byte) : (s.returning n).x = s.x := rfl
@[simp] theorem State.returning_y (s : State) (n : Byte) : (s.returning n).y = s.y := rfl
@[simp] theorem State.returning_status (s : State) (n : Byte) : (s.returning n).status = s.status := rfl
@[simp] theorem State.returning_bus (s : State) (n : Byte) : (s.returning n).bus = s.bus := rfl
@[simp] theorem State.returning_ram (s : State) (n : Byte) : (s.returning n).ram = s.ram := rfl
@[simp] theorem State.returning_prg (s : State) (n : Byte) : (s.returning n).prg = s.prg := rfl
@[simp] theorem State.returning_events (s : State) (n : Byte) : (s.returning n).events = s.events := rfl
@[simp] theorem State.returning_cycles (s : State) (n : Byte) : (s.returning n).cycles = some n := rfl
@[simp] theorem State.returning_accesses (s : State) (n : Byte) : (s.returning n).accesses = s.accesses := rfl

@[simp] theorem State.retire_pc (s : State) (op : Byte) : (s.retire op).pc = s.pc := rfl
@[simp] theorem State.retire_sp (s : State) (op : Byte) : (s.retire op).sp = s.sp := rfl
@[simp] theorem State.retire_a (s : State) (op : Byte) : (s.retire op).a = s.a := rfl
@[simp] theorem State.retire_x (s : State) (op : Byte) : (s.retire op).x = s.x := rfl
@[simp] theorem State.retire_y (s : State) (op : Byte) : (s.retire op).y = s.y := rfl
@[simp] theorem State.retire_status (s : State) (op : Byte) : (s.retire op).status = s.status := rfl
@[simp] theorem State.retire_bus (s : State) (op : Byte) : (s.retire op).bus = s.bus := rfl
@[simp] theorem State.retire_ram (s : State) (op : Byte) : (s.retire op).ram = s.ram := rfl
@[simp] theorem State.retire_prg (s : State) (op : Byte) : (s.retire op).prg = s.prg := rfl
@[simp] theorem State.retire_events (s : State) (op : Byte) : (s.retire op).events = s.events := rfl
@[simp] theorem State.retire_cycles (s : State) (op : Byte) : (s.retire op).cycles = some (baseCycles op) := rfl
@[simp] theorem State.retire_accesses (s : State) (op : Byte) : (s.retire op).accesses = s.accesses := rfl

@[simp] theorem State.retireTaken_pc (s : State) (op : Byte) : (s.retireTaken op).pc = s.pc := rfl
@[simp] theorem State.retireTaken_sp (s : State) (op : Byte) : (s.retireTaken op).sp = s.sp := rfl
@[simp] theorem State.retireTaken_a (s : State) (op : Byte) : (s.retireTaken op).a = s.a := rfl
@[simp] theorem State.retireTaken_x (s : State) (op : Byte) : (s.retireTaken op).x = s.x := rfl
@[simp] theorem State.retireTaken_y (s : State) (op : Byte) : (s.retireTaken op).y = s.y := rfl
@[simp] theorem State.retireTaken_status (s : State) (op : Byte) : (s.retireTaken op).status = s.status := rfl
@[simp] theorem State.retireTaken_bus (s : State) (op : Byte) : (s.retireTaken op).bus = s.bus := rfl
@[simp] theorem State.retireTaken_ram (s : State) (op : Byte) : (s.retireTaken op).ram = s.ram := rfl
@[simp] theorem State.retireTaken_prg (s : State) (op : Byte) : (s.retireTaken op).prg = s.prg := rfl
@[simp] theorem State.retireTaken_events (s : State) (op : Byte) : (s.retireTaken op).events = s.events := rfl
@[simp] theorem State.retireTaken_cycles (s : State) (op : Byte) : (s.retireTaken op).cycles = some (baseCycles op + 1#8) := rfl
@[simp] theorem State.retireTaken_accesses (s : State) (op : Byte) : (s.retireTaken op).accesses = s.accesses := rfl

@[simp] theorem State.beginTick_pc (s : State) : (s.beginTick).pc = s.pc := rfl
@[simp] theorem State.beginTick_sp (s : State) : (s.beginTick).sp = s.sp := rfl
@[simp] theorem State.beginTick_a (s : State) : (s.beginTick).a = s.a := rfl
@[simp] theorem State.beginTick_x (s : State) : (s.beginTick).x = s.x := rfl
@[simp] theorem State.beginTick_y (s : State) : (s.beginTick).y = s.y := rfl
@[simp] theorem State.beginTick_status (s : State) : (s.beginTick).status = s.status := rfl
@[simp] theorem State.beginTick_bus (s : State) : (s.beginTick).bus = s.bus := rfl
@[simp] theorem State.beginTick_ram (s : State) : (s.beginTick).ram = s.ram := rfl
@[simp] theorem State.beginTick_prg (s : State) : (s.beginTick).prg = s.prg := rfl
@[simp] theorem State.beginTick_events (s : State) : (s.beginTick).events = s.events := rfl
@[simp] theorem State.beginTick_cycles (s : State) : (s.beginTick).cycles = s.cycles := rfl
@[simp] theorem State.beginTick_accesses (s : State) : (s.beginTick).accesses = [] := rfl

@[simp] theorem State.setReg_pc (s : State) (r : Reg) (v : Byte) : (s.setReg r v).pc = s.pc := by cases r <;> rfl
@[simp] theorem State.setReg_sp (s : State) (r : Reg) (v : Byte) : (s.setReg r v).sp = s.sp := by cases r <;> rfl
@[simp] theorem State.setReg_status (s : State) (r : Reg) (v : Byte) : (s.setReg r v).status = s.status := by cases r <;> rfl
@[simp] theorem State.setReg_bus (s : State) (r : Reg) (v : Byte) : (s.setReg r v).bus = s.bus := by cases r <;> rfl
@[simp] theorem State.setReg_ram (s : State) (r : Reg) (v : Byte) : (s.setReg r v).ram = s.ram := by cases r <;> rfl
@[simp] theorem State.setReg_prg (s : State) (r : Reg) (v : Byte) : (s.setReg r v).prg = s.prg := by cases r <;> rfl
@[simp] theorem State.setReg_events (s : State) (r : Reg) (v : Byte) : (s.setReg r v).events = s.events := by cases r <;> rfl
@[simp] theorem State.setReg_cycles (s : State) (r : Reg) (v : Byte) : (s.setReg r v).cycles = s.cycles := by cases r <;> rfl
@[simp] theorem State.setReg_accesses (s : State) (r : Reg) (v : Byte) : (s.setReg r v).accesses = s.accesses := by cases r <;> rfl

@[simp] theorem State.getReg_a (s : State) : s.getReg .a = s.a := rfl
@[simp] theorem State.getReg_x (s : State) : s.getReg .x = s.x := rfl
@[simp] theorem State.getReg_y (s : State) : s.getReg .y = s.y := rfl

end Sys2Proof.Machine
end

