-- ==== Sys2Proof/Laws/Ops.lean ====
section
/-! SUPPORT. One lemma per shared operation that says what it does: the bus, the stack, the fetch, the trap. -/

namespace Sys2Proof.Machine

/-- What a bus read returns depends on the bus, the RAM and the PRG image alone. -/
theorem State.peek_congr {s t : State} (hb : t.bus = s.bus) (hr : t.ram = s.ram) (hp : t.prg = s.prg) (addr : Addr) :
    t.peek addr = s.peek addr := by
  unfold State.peek
  rw [hb, hr, hp]

@[simp] theorem State.peek_record (s : State) (e : Access) (addr : Addr) : (s.record e).peek addr = s.peek addr := rfl
@[simp] theorem State.peek_jump (s : State) (t addr : Addr) : (s.jump t).peek addr = s.peek addr := rfl
@[simp] theorem State.peek_setStatus (s : State) (p : Byte) (addr : Addr) : (s.setStatus p).peek addr = s.peek addr := rfl
@[simp] theorem State.peek_setZN (s : State) (v : Byte) (addr : Addr) : (s.setZN v).peek addr = s.peek addr := rfl
@[simp] theorem State.peek_setFlag (s : State) (f : Flag) (b : Bool) (addr : Addr) :
    (s.setFlag f b).peek addr = s.peek addr := rfl
@[simp] theorem State.peek_setReg (s : State) (r : Reg) (v : Byte) (addr : Addr) :
    (s.setReg r v).peek addr = s.peek addr := by cases r <;> rfl
@[simp] theorem State.peek_retire (s : State) (op : Byte) (addr : Addr) : (s.retire op).peek addr = s.peek addr := rfl
@[simp] theorem State.peek_retireTaken (s : State) (op : Byte) (addr : Addr) :
    (s.retireTaken op).peek addr = s.peek addr := rfl
@[simp] theorem State.peek_beginTick (s : State) (addr : Addr) : s.beginTick.peek addr = s.peek addr := rfl

/-- A store is a replayed write: RAM and events, and no other field. -/
theorem State.store_eq (s : State) (addr : Addr) (v : Byte) :
    s.store addr v =
      { s with ram := replayRam s.bus s.ram (.write addr v), events := s.events ++ eventsOf s.bus (.write addr v) } := by
  obtain ⟨pc, sp, a, x, y, status, bus, ram, prg, events, cycles, accesses⟩ := s
  cases bus with
  | flat => simp [State.store, replayRam, eventsOf, writable]
  | mapped m =>
    by_cases h : addr < Config.busSplit
    · simp [State.store, replayRam, eventsOf, writable, h]
    · simp [State.store, replayRam, eventsOf, writable, h]

/-- A bus write is a store and one record. -/
theorem State.memWrite_eq (s : State) (addr : Addr) (v : Byte) :
    s.memWrite addr v =
      { s with
        ram := replayRam s.bus s.ram (.write addr v)
        events := s.events ++ eventsOf s.bus (.write addr v)
        accesses := s.accesses ++ [.write addr v] } := by
  simp only [State.memWrite, State.store_eq, State.record]

/-- What a bus read returns after a store: the byte stored, at that address, if the write reaches RAM; else what it was. -/
theorem State.peek_store (s : State) (addr b : Addr) (v : Byte) :
    (s.store addr v).peek b = if b = addr ∧ writable s.bus addr = true then v else s.peek b := by
  have hne : b ≠ addr → b.toNat ≠ addr.toNat := fun h e => h (BitVec.eq_of_toNat_eq e)
  obtain ⟨pc, sp, a, x, y, status, bus, ram, prg, events, cycles, accesses⟩ := s
  cases bus with
  | flat =>
    by_cases h : b = addr
    · simp [State.store, State.peek, writable, h]
    · simp [State.store, State.peek, writable, h, hne h]
  | mapped m =>
    by_cases hw : addr < Config.busSplit
    · by_cases h : b = addr
      · simp [State.store, State.peek, writable, hw, h]
      · by_cases hb : b < Config.busSplit
        · simp [State.store, State.peek, writable, hw, h, hb, hne h]
        · simp [State.store, State.peek, writable, hw, h, hb]
    · simp [State.store, State.peek, writable, hw]

@[simp] theorem State.peek_memWrite (s : State) (addr b : Addr) (v : Byte) :
    (s.memWrite addr v).peek b = if b = addr ∧ writable s.bus addr = true then v else s.peek b :=
  State.peek_store s addr b v

@[simp] theorem writable_stackSlot (bus : BusInstance) (sp : Byte) : writable bus (stackSlot sp) = true := by
  cases bus <;> simp [writable]

/-- The canonical form within the bus's size is kept by every replayed access. -/
theorem replayRam_wf {b : BusInstance} {m : Memory} (e : Access) (h : m.wf b.ramSize = true) :
    (replayRam b m e).wf b.ramSize = true := by
  cases e with
  | read addr v => exact h
  | write addr v =>
    simp only [replayRam]
    split
    · next hw =>
      apply Memory.wf_write v _ h
      cases b with
      | flat => exact addr.isLt
      | mapped m' =>
        simp only [writable, decide_eq_true_eq, BitVec.lt_def] at hw
        exact hw
    · exact h

theorem foldl_replayRam_wf {b : BusInstance} (log : List Access) {m : Memory} (h : m.wf b.ramSize = true) :
    (log.foldl (replayRam b) m).wf b.ramSize = true := by
  induction log generalizing m with
  | nil => exact h
  | cons e log ih => exact ih (replayRam_wf e h)

/-- A push: the byte on the stack slot, and `sp` down by one (R117). -/
theorem State.push_eq (s : State) (v : Byte) :
    s.push v =
      { s with
        sp := s.sp - 1#8
        ram := replayRam s.bus s.ram (.write (stackSlot s.sp) v)
        events := s.events ++ eventsOf s.bus (.write (stackSlot s.sp) v)
        accesses := s.accesses ++ [.write (stackSlot s.sp) v] } := by
  simp only [State.push, State.memWrite_eq]

/-- What a bus read returns after a push. -/
@[simp] theorem State.peek_push (s : State) (v : Byte) (b : Addr) :
    (s.push v).peek b = if b = stackSlot s.sp then v else s.peek b := by
  have h : (s.push v).peek b = (s.memWrite (stackSlot s.sp) v).peek b := rfl
  rw [h, State.peek_memWrite]
  simp

@[simp] theorem State.push_pc (s : State) (v : Byte) : (s.push v).pc = s.pc := by rw [State.push_eq]
@[simp] theorem State.push_a (s : State) (v : Byte) : (s.push v).a = s.a := by rw [State.push_eq]
@[simp] theorem State.push_x (s : State) (v : Byte) : (s.push v).x = s.x := by rw [State.push_eq]
@[simp] theorem State.push_y (s : State) (v : Byte) : (s.push v).y = s.y := by rw [State.push_eq]
@[simp] theorem State.push_status (s : State) (v : Byte) : (s.push v).status = s.status := by rw [State.push_eq]
@[simp] theorem State.push_bus (s : State) (v : Byte) : (s.push v).bus = s.bus := by rw [State.push_eq]
@[simp] theorem State.push_prg (s : State) (v : Byte) : (s.push v).prg = s.prg := by rw [State.push_eq]
@[simp] theorem State.push_cycles (s : State) (v : Byte) : (s.push v).cycles = s.cycles := by rw [State.push_eq]
@[simp] theorem State.push_sp (s : State) (v : Byte) : (s.push v).sp = s.sp - 1#8 := by rw [State.push_eq]

@[simp] theorem State.pushWord_pc (s : State) (w : Addr) : (s.pushWord w).pc = s.pc := by simp [State.pushWord]
@[simp] theorem State.pushWord_a (s : State) (w : Addr) : (s.pushWord w).a = s.a := by simp [State.pushWord]
@[simp] theorem State.pushWord_x (s : State) (w : Addr) : (s.pushWord w).x = s.x := by simp [State.pushWord]
@[simp] theorem State.pushWord_y (s : State) (w : Addr) : (s.pushWord w).y = s.y := by simp [State.pushWord]
@[simp] theorem State.pushWord_status (s : State) (w : Addr) : (s.pushWord w).status = s.status := by simp [State.pushWord]
@[simp] theorem State.pushWord_bus (s : State) (w : Addr) : (s.pushWord w).bus = s.bus := by simp [State.pushWord]
@[simp] theorem State.pushWord_prg (s : State) (w : Addr) : (s.pushWord w).prg = s.prg := by simp [State.pushWord]
@[simp] theorem State.pushWord_cycles (s : State) (w : Addr) : (s.pushWord w).cycles = s.cycles := by simp [State.pushWord]
@[simp] theorem State.pushWord_sp (s : State) (w : Addr) : (s.pushWord w).sp = s.sp - 1#8 - 1#8 := by simp [State.pushWord]

/-- What a bus read returns after a word is pushed: the high byte in the first slot, the low byte in the next (R47). -/
@[simp] theorem State.peek_pushWord (s : State) (w b : Addr) :
    (s.pushWord w).peek b =
      if b = stackSlot (s.sp - 1#8) then loByte w else if b = stackSlot s.sp then hiByte w else s.peek b := by
  simp [State.pushWord]

/-- A pull: `sp` up by one, and the byte of its slot (R118). -/
theorem State.pull_eq (s : State) :
    s.pull =
      (s.peek (stackSlot (s.sp + 1#8)),
        { s with
          sp := s.sp + 1#8
          accesses := s.accesses ++ [.read (stackSlot (s.sp + 1#8)) (s.peek (stackSlot (s.sp + 1#8)))] }) := rfl

/-- Two pulls making a word, low byte first (R47). -/
theorem State.pullWord_eq (s : State) :
    s.pullWord =
      (wordOf (s.peek (stackSlot (s.sp + 1#8 + 1#8))) (s.peek (stackSlot (s.sp + 1#8))),
        { s with
          sp := s.sp + 1#8 + 1#8
          accesses := s.accesses ++
            [.read (stackSlot (s.sp + 1#8)) (s.peek (stackSlot (s.sp + 1#8))),
              .read (stackSlot (s.sp + 1#8 + 1#8)) (s.peek (stackSlot (s.sp + 1#8 + 1#8)))] }) := by
  have h : s.pullWord =
      (wordOf (s.peek (stackSlot (s.sp + 1#8 + 1#8))) (s.peek (stackSlot (s.sp + 1#8))),
        { s with
          sp := s.sp + 1#8 + 1#8
          accesses := s.accesses ++ [.read (stackSlot (s.sp + 1#8)) (s.peek (stackSlot (s.sp + 1#8)))] ++
            [.read (stackSlot (s.sp + 1#8 + 1#8)) (s.peek (stackSlot (s.sp + 1#8 + 1#8)))] }) := rfl
  rw [h, List.append_assoc]
  rfl

/-- A fetched byte: the byte at `pc`, and `pc` up by one (R76). -/
theorem State.fetch8_eq (s : State) :
    s.fetch8 =
      (s.peek s.pc,
        { s with pc := s.pc + 1#16, accesses := s.accesses ++ [.read s.pc (s.peek s.pc)] }) := rfl

/-- Two bus reads making a word (R10). -/
theorem State.read16_eq (s : State) (lo hi : Addr) :
    s.read16 lo hi =
      (wordOf (s.peek hi) (s.peek lo),
        { s with accesses := s.accesses ++ [.read lo (s.peek lo), .read hi (s.peek hi)] }) := by
  have h : s.read16 lo hi =
      (wordOf (s.peek hi) (s.peek lo),
        { s with accesses := s.accesses ++ [.read lo (s.peek lo)] ++ [.read hi (s.peek hi)] }) := rfl
  rw [h, List.append_assoc]
  rfl

/-- Reset (R186, R187). -/
theorem State.resetToPowerUp_eq (s : State) :
    s.resetToPowerUp =
      { s with
        pc := wordOf (s.peek 0xFFFD#16) (s.peek 0xFFFC#16)
        sp := 0xFD#8
        a := 0x00#8
        x := 0x00#8
        y := 0x00#8
        status := 0x34#8
        cycles := none
        accesses := [.read 0xFFFC#16 (s.peek 0xFFFC#16), .read 0xFFFD#16 (s.peek 0xFFFD#16)] } := rfl

end Sys2Proof.Machine
end

