-- ==== Sys2Proof/Laws/Trace.lean ====
section
/-! SUPPORT. Every shared operation reaches memory, the events and the record of accesses through the accesses it makes and
in no other way: the relation `FollowsBy` holds of it, and of one operation after another. -/

namespace Sys2Proof

open Sys2Proof.Machine

theorem FollowsBy.refl (s : State) : FollowsBy [] s s := ⟨rfl, by simp, rfl, rfl, by simp⟩

theorem FollowsBy.trans {l₁ l₂ : List Access} {s t u : State} (h₁ : FollowsBy l₁ s t) (h₂ : FollowsBy l₂ t u) :
    FollowsBy (l₁ ++ l₂) s u where
  ram := by rw [h₂.ram, h₁.ram, h₁.bus, List.foldl_append]
  events := by rw [h₂.events, h₁.events, h₁.bus, List.flatMap_append, List.append_assoc]
  bus := by rw [h₂.bus, h₁.bus]
  prg := by rw [h₂.prg, h₁.prg]
  accesses := by rw [h₂.accesses, h₁.accesses, List.append_assoc]

/-- A change of registers, status and returned count alone makes no access. -/
theorem FollowsBy.of_same {s t : State} (hr : t.ram = s.ram) (he : t.events = s.events) (hb : t.bus = s.bus)
    (hp : t.prg = s.prg) (ha : t.accesses = s.accesses) : FollowsBy [] s t :=
  ⟨by simp [hr], by simp [he], hb, hp, by simp [ha]⟩

theorem followsBy_memRead (s : State) (addr : Addr) : FollowsBy [.read addr (s.peek addr)] s (s.memRead addr).2 :=
  ⟨rfl, by simp [State.memRead, eventsOf], rfl, rfl, rfl⟩

theorem followsBy_memWrite (s : State) (addr : Addr) (v : Byte) : FollowsBy [.write addr v] s (s.memWrite addr v) := by
  rw [State.memWrite_eq]
  exact ⟨rfl, by simp, rfl, rfl, rfl⟩

theorem followsBy_push (s : State) (v : Byte) : FollowsBy [.write (stackSlot s.sp) v] s (s.push v) := by
  rw [State.push_eq]
  exact ⟨rfl, by simp, rfl, rfl, rfl⟩

theorem followsBy_pushWord (s : State) (w : Addr) :
    FollowsBy [.write (stackSlot s.sp) (hiByte w), .write (stackSlot (s.sp - 1#8)) (loByte w)] s (s.pushWord w) := by
  have h := (followsBy_push s (hiByte w)).trans (followsBy_push (s.push (hiByte w)) (loByte w))
  rw [State.push_sp] at h
  exact h

theorem followsBy_pull (s : State) :
    FollowsBy [.read (stackSlot (s.sp + 1#8)) (s.peek (stackSlot (s.sp + 1#8)))] s s.pull.2 :=
  ⟨rfl, by simp [State.pull_eq, eventsOf], rfl, rfl, rfl⟩

theorem followsBy_pullWord (s : State) :
    FollowsBy
      [.read (stackSlot (s.sp + 1#8)) (s.peek (stackSlot (s.sp + 1#8))),
        .read (stackSlot (s.sp + 1#8 + 1#8)) (s.peek (stackSlot (s.sp + 1#8 + 1#8)))]
      s s.pullWord.2 :=
  (followsBy_pull s).trans (followsBy_pull s.pull.2)

theorem followsBy_fetch8 (s : State) : FollowsBy [.read s.pc (s.peek s.pc)] s s.fetch8.2 :=
  ⟨rfl, by simp [State.fetch8_eq, eventsOf], rfl, rfl, rfl⟩

theorem followsBy_fetch16 (s : State) :
    FollowsBy [.read s.pc (s.peek s.pc), .read (s.pc + 1#16) (s.peek (s.pc + 1#16))] s s.fetch16.2 :=
  (followsBy_fetch8 s).trans (followsBy_fetch8 s.fetch8.2)

theorem followsBy_read16 (s : State) (lo hi : Addr) :
    FollowsBy [.read lo (s.peek lo), .read hi (s.peek hi)] s (s.read16 lo hi).2 :=
  (followsBy_memRead s lo).trans (followsBy_memRead (s.memRead lo).2 hi)

/-- Trap entry, up to the reads of the vector: `pc` past the break byte, the three pushes, B and I (R167). -/
def trapFrame (s : State) : State :=
  (((((s.jump (s.pc + 1#16)).pushWord (s.pc + 1#16)).push (pushedStatus s.status)).setFlag .b false).setFlag .i true)

/-- Trap entry is the frame, then the vector (R167, R175). -/
theorem enterTrap_eq (s : State) :
    s.enterTrap =
      ((trapFrame s).read16 0xFFFE#16 0xFFFF#16).2.jump ((trapFrame s).read16 0xFFFE#16 0xFFFF#16).1 := by
  have h : ((s.jump (s.pc + 1#16)).pushWord (s.pc + 1#16)).status = s.status := by simp
  simp only [State.enterTrap, trapFrame, State.jump_pc, h]

/-- What a bus read returns once the frame is pushed: the three bytes in their slots, and what it was elsewhere. -/
@[simp] theorem peek_trapFrame (s : State) (b : Addr) :
    (trapFrame s).peek b =
      if b = stackSlot (s.sp - 1#8 - 1#8) then pushedStatus s.status
      else if b = stackSlot (s.sp - 1#8) then loByte (s.pc + 1#16)
      else if b = stackSlot s.sp then hiByte (s.pc + 1#16)
      else s.peek b := by
  simp only [trapFrame, State.peek_setFlag, State.peek_push, State.peek_pushWord, State.pushWord_sp, State.jump_sp,
    State.peek_jump]
  rfl

/-- The accesses of trap entry: three pushes and the two reads of the vector (R94, R167). -/
theorem followsBy_enterTrap (s : State) :
    FollowsBy
      [.write (stackSlot s.sp) (hiByte (s.pc + 1#16)), .write (stackSlot (s.sp - 1#8)) (loByte (s.pc + 1#16)),
        .write (stackSlot (s.sp - 1#8 - 1#8)) (pushedStatus s.status),
        .read 0xFFFE#16 ((trapFrame s).peek 0xFFFE#16), .read 0xFFFF#16 ((trapFrame s).peek 0xFFFF#16)]
      s s.enterTrap := by
  have h₁ : FollowsBy [] s (s.jump (s.pc + 1#16)) := .of_same rfl rfl rfl rfl rfl
  have h₂ := h₁.trans (followsBy_pushWord (s.jump (s.pc + 1#16)) (s.pc + 1#16))
  have h₃ := h₂.trans (followsBy_push _ (pushedStatus s.status))
  rw [State.pushWord_sp] at h₃
  have h₄ : FollowsBy _ s (trapFrame s) := h₃.trans (.of_same rfl rfl rfl rfl rfl)
  have h₅ := h₄.trans (followsBy_read16 (trapFrame s) 0xFFFE#16 0xFFFF#16)
  rw [enterTrap_eq]
  exact ⟨h₅.ram, h₅.events, h₅.bus, h₅.prg, h₅.accesses⟩

/-- Trap entry, field by field (R167). -/
theorem enterTrap_record (s : State) :
    s.enterTrap =
      { s with
        pc := wordOf (s.peek 0xFFFF#16) (s.peek 0xFFFE#16)
        sp := s.sp - 1#8 - 1#8 - 1#8
        status := withFlag (withFlag s.status .b false) .i true
        ram := (trapFrame s).ram
        accesses := s.accesses ++
          [.write (stackSlot s.sp) (hiByte (s.pc + 1#16)), .write (stackSlot (s.sp - 1#8)) (loByte (s.pc + 1#16)),
            .write (stackSlot (s.sp - 1#8 - 1#8)) (pushedStatus s.status),
            .read 0xFFFE#16 (s.peek 0xFFFE#16), .read 0xFFFF#16 (s.peek 0xFFFF#16)] } := by
  have he : (trapFrame s).peek 0xFFFE#16 = s.peek 0xFFFE#16 := by
    simp [fun q => (stackSlot_ne_vector q).1.symm]
  have hf : (trapFrame s).peek 0xFFFF#16 = s.peek 0xFFFF#16 := by
    simp [fun q => (stackSlot_ne_vector q).2.symm]
  have hs := (followsBy_enterTrap s).accesses
  have hv := (followsBy_enterTrap s).events
  rw [he, hf] at hs
  simp only [List.flatMap_cons, eventsOf, List.flatMap_nil, List.append_nil] at hv
  rw [enterTrap_eq] at hs hv ⊢
  simp only [State.read16_eq, he, hf] at hs hv ⊢
  simp [State.jump, trapFrame] at hs hv ⊢
  exact ⟨hv, hs⟩

/-- Trap return: the status, then `pc`, from the three slots above `sp` (R168, R176). -/
theorem leaveTrap_eq (s : State) :
    s.leaveTrap =
      ((s.pull.2.setStatus (pulledStatus s.pull.1)).pullWord).2.jump
        ((s.pull.2.setStatus (pulledStatus s.pull.1)).pullWord).1 := rfl

/-- Trap return, field by field (R168). -/
theorem leaveTrap_record (s : State) :
    s.leaveTrap =
      { s with
        pc := wordOf (s.peek (stackSlot (s.sp + 1#8 + 1#8 + 1#8))) (s.peek (stackSlot (s.sp + 1#8 + 1#8)))
        sp := s.sp + 1#8 + 1#8 + 1#8
        status := pulledStatus (s.peek (stackSlot (s.sp + 1#8)))
        accesses := s.accesses ++
          [.read (stackSlot (s.sp + 1#8)) (s.peek (stackSlot (s.sp + 1#8))),
            .read (stackSlot (s.sp + 1#8 + 1#8)) (s.peek (stackSlot (s.sp + 1#8 + 1#8))),
            .read (stackSlot (s.sp + 1#8 + 1#8 + 1#8)) (s.peek (stackSlot (s.sp + 1#8 + 1#8 + 1#8)))] } := by
  rw [leaveTrap_eq, State.pullWord_eq]
  simp only [State.pull_eq, State.setStatus, State.jump, List.append_assoc]
  rfl

/-- The accesses of trap return: three pulls (R94, R168). -/
theorem followsBy_leaveTrap (s : State) :
    FollowsBy
      [.read (stackSlot (s.sp + 1#8)) (s.peek (stackSlot (s.sp + 1#8))),
        .read (stackSlot (s.sp + 1#8 + 1#8)) (s.peek (stackSlot (s.sp + 1#8 + 1#8))),
        .read (stackSlot (s.sp + 1#8 + 1#8 + 1#8)) (s.peek (stackSlot (s.sp + 1#8 + 1#8 + 1#8)))]
      s s.leaveTrap := by
  have h₂ : FollowsBy [] s.pull.2 (s.pull.2.setStatus (pulledStatus s.pull.1)) := .of_same rfl rfl rfl rfl rfl
  have h₃ := ((followsBy_pull s).trans h₂).trans (followsBy_pullWord (s.pull.2.setStatus (pulledStatus s.pull.1)))
  rw [leaveTrap_eq]
  exact ⟨h₃.ram, h₃.events, h₃.bus, h₃.prg, h₃.accesses⟩

theorem followsBy_fetchInstr (s : State) : ∃ log, FollowsBy log s s.fetchInstr.2 := by
  have h₁ := followsBy_fetch8 s
  unfold State.fetchInstr
  dsimp only
  split
  · exact ⟨_, h₁⟩
  · exact ⟨_, h₁.trans (followsBy_fetch8 _)⟩
  · exact ⟨_, h₁.trans (followsBy_fetch16 _)⟩

end Sys2Proof
end

