-- ==== Sys2Proof/Laws/Operands.lean ====
section
/-! SUPPORT. What resolving a mode and loading an operand do: they change the record of accesses and nothing else. -/

namespace Sys2Proof.Machine

/-- The effective address of a mode. -/
def State.formAddr (s : State) : AddrForm → Addr
  | .zp zz => zpAddr zz
  | .zpx zz => zpIndexed zz s.x
  | .zpy zz => zpIndexed zz s.y
  | .abs hhll => hhll
  | .absx hhll => absIndexed hhll s.x
  | .absy hhll => absIndexed hhll s.y
  | .indx zz => wordOf (s.peek (zpAddr (zz + s.x + 1#8))) (s.peek (zpAddr (zz + s.x)))
  | .indy zz => absIndexed (wordOf (s.peek (zpAddr (zz + 1#8))) (s.peek (zpAddr zz))) s.y

/-- The two reads of a pointer in the zero page. -/
def State.pointerReads (s : State) (p : Byte) : List Access :=
  [.read (zpAddr p) (s.peek (zpAddr p)), .read (zpAddr (p + 1#8)) (s.peek (zpAddr (p + 1#8)))]

/-- The pointer reads of a mode. -/
def State.formReads (s : State) : AddrForm → List Access
  | .indx zz => s.pointerReads (zz + s.x)
  | .indy zz => s.pointerReads zz
  | _ => []

/-- Resolving a mode gives its effective address and records its pointer reads (R82 to R90). -/
theorem State.resolve_eq (s : State) (f : AddrForm) :
    s.resolve f = (s.formAddr f, { s with accesses := s.accesses ++ s.formReads f }) := by
  cases f <;> simp [State.resolve, State.formAddr, State.formReads, State.pointerReads, State.zpPointer, State.read16_eq]

/-- The value of a value operand. -/
def State.formValue (s : State) : ValueForm → Byte
  | .imm nn => nn
  | .mem f => s.peek (s.formAddr f)

/-- The reads of a value operand. -/
def State.valueReads (s : State) : ValueForm → List Access
  | .imm _ => []
  | .mem f => s.formReads f ++ [.read (s.formAddr f) (s.peek (s.formAddr f))]

/-- Loading an operand gives its value and records its reads (R92). -/
theorem State.load_eq (s : State) (f : ValueForm) :
    s.load f = (s.formValue f, { s with accesses := s.accesses ++ s.valueReads f }) := by
  cases f with
  | imm nn => simp [State.load, State.formValue, State.valueReads]
  | mem f =>
    simp only [State.load, State.resolve_eq, State.memRead, State.formValue, State.valueReads, State.record,
      List.append_assoc]
    rfl

/-- The target of a jump. -/
def State.jumpAddr (s : State) : JumpForm → Addr
  | .abs hhll => hhll
  | .ind ptr => wordOf (s.peek (indHighAddr ptr)) (s.peek ptr)

/-- The pointer reads of a jump. -/
def State.jumpReads (s : State) : JumpForm → List Access
  | .abs _ => []
  | .ind ptr => [.read ptr (s.peek ptr), .read (indHighAddr ptr) (s.peek (indHighAddr ptr))]

/-- Resolving a jump's operand gives its target and records its pointer reads (R85, R88). -/
theorem State.jumpTarget_eq (s : State) (f : JumpForm) :
    s.jumpTarget f = (s.jumpAddr f, { s with accesses := s.accesses ++ s.jumpReads f }) := by
  cases f <;> simp [State.jumpTarget, State.jumpAddr, State.jumpReads, State.read16_eq]

/-! What a mode resolves to and loads depends on `x`, `y` and memory, not on the status. -/

@[simp] theorem State.formAddr_setStatus (s : State) (p : Byte) (f : AddrForm) :
    (s.setStatus p).formAddr f = s.formAddr f := by cases f <;> rfl
@[simp] theorem State.formAddr_setFlag (s : State) (g : Flag) (b : Bool) (f : AddrForm) :
    (s.setFlag g b).formAddr f = s.formAddr f := by cases f <;> rfl
@[simp] theorem State.formReads_setStatus (s : State) (p : Byte) (f : AddrForm) :
    (s.setStatus p).formReads f = s.formReads f := by cases f <;> rfl
@[simp] theorem State.formReads_setFlag (s : State) (g : Flag) (b : Bool) (f : AddrForm) :
    (s.setFlag g b).formReads f = s.formReads f := by cases f <;> rfl
@[simp] theorem State.formValue_setStatus (s : State) (p : Byte) (f : ValueForm) :
    (s.setStatus p).formValue f = s.formValue f := by cases f <;> rfl
@[simp] theorem State.formValue_setFlag (s : State) (g : Flag) (b : Bool) (f : ValueForm) :
    (s.setFlag g b).formValue f = s.formValue f := by cases f <;> rfl
@[simp] theorem State.valueReads_setStatus (s : State) (p : Byte) (f : ValueForm) :
    (s.setStatus p).valueReads f = s.valueReads f := by cases f <;> rfl
@[simp] theorem State.valueReads_setFlag (s : State) (g : Flag) (b : Bool) (f : ValueForm) :
    (s.setFlag g b).valueReads f = s.valueReads f := by cases f <;> rfl
@[simp] theorem State.jumpAddr_setStatus (s : State) (p : Byte) (f : JumpForm) :
    (s.setStatus p).jumpAddr f = s.jumpAddr f := by cases f <;> rfl
@[simp] theorem State.jumpAddr_setFlag (s : State) (g : Flag) (b : Bool) (f : JumpForm) :
    (s.setFlag g b).jumpAddr f = s.jumpAddr f := by cases f <;> rfl
@[simp] theorem State.jumpReads_setStatus (s : State) (p : Byte) (f : JumpForm) :
    (s.setStatus p).jumpReads f = s.jumpReads f := by cases f <;> rfl
@[simp] theorem State.jumpReads_setFlag (s : State) (g : Flag) (b : Bool) (f : JumpForm) :
    (s.setFlag g b).jumpReads f = s.jumpReads f := by cases f <;> rfl

theorem followsBy_resolve (s : State) (f : AddrForm) : FollowsBy (s.formReads f) s (s.resolve f).2 := by
  rw [State.resolve_eq]
  cases f <;> exact ⟨by simp [State.formReads, State.pointerReads, replayRam],
    by simp [State.formReads, State.pointerReads, eventsOf], rfl, rfl, rfl⟩

theorem followsBy_load (s : State) (f : ValueForm) : FollowsBy (s.valueReads f) s (s.load f).2 := by
  cases f with
  | imm nn => exact .refl s
  | mem f =>
    have h := (followsBy_resolve s f).trans (followsBy_memRead (s.resolve f).2 (s.resolve f).1)
    have e : s.load (.mem f) = (s.resolve f).2.memRead (s.resolve f).1 := rfl
    rw [e]
    rw [State.resolve_eq] at h ⊢
    exact h

theorem followsBy_jumpTarget (s : State) (f : JumpForm) : FollowsBy (s.jumpReads f) s (s.jumpTarget f).2 := by
  cases f with
  | abs hhll => exact .refl s
  | ind ptr => exact followsBy_read16 s ptr (indHighAddr ptr)

end Sys2Proof.Machine
end

