-- ==== Sys2Proof/Laws/Meanings.lean ====
section
/-! SUPPORT. One lemma per shared meaning: the next state it answers, written out. A constructor's meaning is one of these
by definition (`exec (.ldaZp zz) s = loadInto .a (.mem (.zp zz)) 0xA5#8 s` by `rfl`). -/

namespace Sys2Proof.Machine

/-- LDA, LDX, LDY (R101 to R103). -/
theorem loadInto_eq (r : Reg) (f : ValueForm) (op : Byte) (s : State) :
    loadInto r f op s = .next
      { s.setReg r (s.formValue f) with
        status := withZN s.status (s.formValue f)
        cycles := some (baseCycles op)
        accesses := s.accesses ++ s.valueReads f } := by
  simp only [loadInto, State.load_eq]
  cases r <;> rfl

/-- STA, STX, STY (R104 to R106). -/
theorem storeFrom_eq (r : Reg) (f : AddrForm) (op : Byte) (s : State) :
    storeFrom r f op s = .next
      (State.store
        { s with
          cycles := some (baseCycles op)
          accesses := s.accesses ++ s.formReads f ++ [.write (s.formAddr f) (s.getReg r)] }
        (s.formAddr f) (s.getReg r)) := by
  simp only [storeFrom, State.resolve_eq, State.memWrite_eq, State.store_eq]
  cases r <;> rfl

/-- TAX, TAY, TXA, TYA (R107 to R110). -/
theorem transfer_eq (r d : Reg) (op : Byte) (s : State) :
    transfer r d op s = .next
      { s.setReg d (s.getReg r) with status := withZN s.status (s.getReg r), cycles := some (baseCycles op) } := by
  cases r <;> cases d <;> rfl

/-- AND, ORA, EOR (R123 to R125). -/
theorem logicInto_eq (g : Byte → Byte → Byte) (f : ValueForm) (op : Byte) (s : State) :
    logicInto g f op s = .next
      { s with
        a := g s.a (s.formValue f)
        status := withZN s.status (g s.a (s.formValue f))
        cycles := some (baseCycles op)
        accesses := s.accesses ++ s.valueReads f } := by
  simp only [logicInto, State.load_eq]
  rfl

/-- BIT (R126). -/
theorem testBits_eq (f : AddrForm) (op : Byte) (s : State) :
    testBits f op s = .next
      { s with
        status := bitStatus s.status s.a (s.formValue (.mem f))
        cycles := some (baseCycles op)
        accesses := s.accesses ++ s.valueReads (.mem f) } := by
  simp only [testBits, State.load_eq]
  rfl

/-- ADC (R127). -/
theorem addInto_eq (f : ValueForm) (op : Byte) (s : State) :
    addInto f op s = .next
      { s with
        a := adcResult s.a (s.formValue f) (flagOf s.status .c)
        status := adcStatus s.status s.a (s.formValue f)
        cycles := some (baseCycles op)
        accesses := s.accesses ++ s.valueReads f } := by
  simp only [addInto, State.load_eq]
  rfl

/-- SBC (R128). -/
theorem subtractFrom_eq (f : ValueForm) (op : Byte) (s : State) :
    subtractFrom f op s = .next
      { s with
        a := sbcResult s.a (s.formValue f) (flagOf s.status .c)
        status := sbcStatus s.status s.a (s.formValue f)
        cycles := some (baseCycles op)
        accesses := s.accesses ++ s.valueReads f } := by
  simp only [subtractFrom, State.load_eq]
  rfl

/-- CMP, CPX, CPY (R129 to R131). -/
theorem compareReg_eq (r : Reg) (f : ValueForm) (op : Byte) (s : State) :
    compareReg r f op s = .next
      { s with
        status := compareStatus s.status (s.getReg r) (s.formValue f)
        cycles := some (baseCycles op)
        accesses := s.accesses ++ s.valueReads f } := by
  simp only [compareReg, State.load_eq]
  cases r <;> rfl

/-- INC, DEC (R135, R136, R145). -/
theorem stepMemory_eq (g : Byte → Byte) (f : AddrForm) (op : Byte) (s : State) :
    stepMemory g f op s = .next
      { State.store
          { s with
            cycles := some (baseCycles op)
            accesses := s.accesses ++ s.valueReads (.mem f) ++ [.write (s.formAddr f) (g (s.formValue (.mem f)))] }
          (s.formAddr f) (g (s.formValue (.mem f))) with
        status := withZN s.status (g (s.formValue (.mem f))) } := by
  simp only [stepMemory, State.resolve_eq, State.memRead, State.memWrite_eq, State.store_eq, State.record,
    State.valueReads, ← List.append_assoc]
  rfl

/-- INX, INY, DEX, DEY (R137 to R140). -/
theorem stepReg_eq (g : Byte → Byte) (r : Reg) (op : Byte) (s : State) :
    stepReg g r op s = .next
      { s.setReg r (g (s.getReg r)) with
        status := withZN s.status (g (s.getReg r))
        cycles := some (baseCycles op) } := by
  cases r <;> rfl

/-- The accumulator forms of the shifts (R141 to R144). -/
theorem shiftTarget_acc_eq (g : Byte → Bool → Shifted) (op : Byte) (s : State) :
    shiftTarget g .acc op s = .next
      { s with
        a := (g s.a (flagOf s.status .c)).result
        status := shiftStatus s.status (g s.a (flagOf s.status .c))
        cycles := some (baseCycles op) } := rfl

/-- The memory forms of the shifts (R141 to R145). -/
theorem shiftTarget_mem_eq (g : Byte → Bool → Shifted) (f : AddrForm) (op : Byte) (s : State) :
    shiftTarget g (.mem f) op s = .next
      { State.store
          { s with
            cycles := some (baseCycles op)
            accesses := s.accesses ++ s.valueReads (.mem f) ++
              [.write (s.formAddr f) (g (s.formValue (.mem f)) (flagOf s.status .c)).result] }
          (s.formAddr f) (g (s.formValue (.mem f)) (flagOf s.status .c)).result with
        status := shiftStatus s.status (g (s.formValue (.mem f)) (flagOf s.status .c)) } := by
  simp only [shiftTarget, State.resolve_eq, State.memRead, State.memWrite_eq, State.store_eq, State.record,
    State.setStatus, State.valueReads, ← List.append_assoc]
  rfl

/-- JMP (R147). -/
theorem jumpTo_eq (f : JumpForm) (op : Byte) (s : State) :
    jumpTo f op s = .next
      { s with
        pc := s.jumpAddr f
        cycles := some (baseCycles op)
        accesses := s.accesses ++ s.jumpReads f } := by
  simp only [jumpTo, State.jumpTarget_eq]
  rfl

/-- Every branch (R150, R197). -/
theorem branchIf_eq (f : Flag) (value : Bool) (dd op : Byte) (s : State) :
    branchIf f value dd op s = .next
      { s with
        pc := if flagOf s.status f = value then s.pc + sext16 dd else s.pc
        cycles := some (if flagOf s.status f = value then baseCycles op + 1#8 else baseCycles op) } := by
  unfold branchIf
  split <;> simp [State.jump, State.retireTaken, State.retire, State.returning, *]

/-- CLC, CLD, CLI, CLV, SEC, SED, SEI (R160 to R166). -/
theorem writeFlag_eq (f : Flag) (value : Bool) (op : Byte) (s : State) :
    writeFlag f value op s = .next { s with status := withFlag s.status f value, cycles := some (baseCycles op) } := rfl

end Sys2Proof.Machine
end

