-- ==== Sys2Proof/Laws/Exec.lean ====
section
/-! SUPPORT. One lemma per constructor: the shared meaning that `exec` answers with, true by definition. -/

namespace Sys2Proof.Machine

@[simp] theorem exec_brk (s : State) :
    exec .brk s = .next (s.enterTrap.retire 0x00#8) := rfl
@[simp] theorem exec_oraIndx (zz : Byte) (s : State) :
    exec (.oraIndx zz) s = logicInto (· ||| ·) (.mem (.indx zz)) 0x01#8 s := rfl
@[simp] theorem exec_oraZp (zz : Byte) (s : State) :
    exec (.oraZp zz) s = logicInto (· ||| ·) (.mem (.zp zz)) 0x05#8 s := rfl
@[simp] theorem exec_aslZp (zz : Byte) (s : State) :
    exec (.aslZp zz) s = shiftTarget shiftAsl (.mem (.zp zz)) 0x06#8 s := rfl
@[simp] theorem exec_php (s : State) :
    exec .php s = .next ((s.push (pushedStatus s.status)).retire 0x08#8) := rfl
@[simp] theorem exec_oraImm (nn : Byte) (s : State) :
    exec (.oraImm nn) s = logicInto (· ||| ·) (.imm nn) 0x09#8 s := rfl
@[simp] theorem exec_aslAcc (s : State) :
    exec .aslAcc s = shiftTarget shiftAsl .acc 0x0A#8 s := rfl
@[simp] theorem exec_oraAbs (hhll : Addr) (s : State) :
    exec (.oraAbs hhll) s = logicInto (· ||| ·) (.mem (.abs hhll)) 0x0D#8 s := rfl
@[simp] theorem exec_aslAbs (hhll : Addr) (s : State) :
    exec (.aslAbs hhll) s = shiftTarget shiftAsl (.mem (.abs hhll)) 0x0E#8 s := rfl
@[simp] theorem exec_bpl (dd : Byte) (s : State) :
    exec (.bpl dd) s = branchIf .n false dd 0x10#8 s := rfl
@[simp] theorem exec_oraIndy (zz : Byte) (s : State) :
    exec (.oraIndy zz) s = logicInto (· ||| ·) (.mem (.indy zz)) 0x11#8 s := rfl
@[simp] theorem exec_oraZpx (zz : Byte) (s : State) :
    exec (.oraZpx zz) s = logicInto (· ||| ·) (.mem (.zpx zz)) 0x15#8 s := rfl
@[simp] theorem exec_aslZpx (zz : Byte) (s : State) :
    exec (.aslZpx zz) s = shiftTarget shiftAsl (.mem (.zpx zz)) 0x16#8 s := rfl
@[simp] theorem exec_clc (s : State) :
    exec .clc s = writeFlag .c false 0x18#8 s := rfl
@[simp] theorem exec_oraAbsy (hhll : Addr) (s : State) :
    exec (.oraAbsy hhll) s = logicInto (· ||| ·) (.mem (.absy hhll)) 0x19#8 s := rfl
@[simp] theorem exec_oraAbsx (hhll : Addr) (s : State) :
    exec (.oraAbsx hhll) s = logicInto (· ||| ·) (.mem (.absx hhll)) 0x1D#8 s := rfl
@[simp] theorem exec_aslAbsx (hhll : Addr) (s : State) :
    exec (.aslAbsx hhll) s = shiftTarget shiftAsl (.mem (.absx hhll)) 0x1E#8 s := rfl
@[simp] theorem exec_jsr (hhll : Addr) (s : State) :
    exec (.jsr hhll) s = .next (((s.pushWord (s.pc - 1#16)).jump hhll).retire 0x20#8) := rfl
@[simp] theorem exec_andIndx (zz : Byte) (s : State) :
    exec (.andIndx zz) s = logicInto (· &&& ·) (.mem (.indx zz)) 0x21#8 s := rfl
@[simp] theorem exec_bitZp (zz : Byte) (s : State) :
    exec (.bitZp zz) s = testBits (.zp zz) 0x24#8 s := rfl
@[simp] theorem exec_andZp (zz : Byte) (s : State) :
    exec (.andZp zz) s = logicInto (· &&& ·) (.mem (.zp zz)) 0x25#8 s := rfl
@[simp] theorem exec_rolZp (zz : Byte) (s : State) :
    exec (.rolZp zz) s = shiftTarget shiftRol (.mem (.zp zz)) 0x26#8 s := rfl
@[simp] theorem exec_plp (s : State) :
    exec .plp s = .next ((s.pull.2.setStatus (pulledStatus s.pull.1)).retire 0x28#8) := rfl
@[simp] theorem exec_andImm (nn : Byte) (s : State) :
    exec (.andImm nn) s = logicInto (· &&& ·) (.imm nn) 0x29#8 s := rfl
@[simp] theorem exec_rolAcc (s : State) :
    exec .rolAcc s = shiftTarget shiftRol .acc 0x2A#8 s := rfl
@[simp] theorem exec_bitAbs (hhll : Addr) (s : State) :
    exec (.bitAbs hhll) s = testBits (.abs hhll) 0x2C#8 s := rfl
@[simp] theorem exec_andAbs (hhll : Addr) (s : State) :
    exec (.andAbs hhll) s = logicInto (· &&& ·) (.mem (.abs hhll)) 0x2D#8 s := rfl
@[simp] theorem exec_rolAbs (hhll : Addr) (s : State) :
    exec (.rolAbs hhll) s = shiftTarget shiftRol (.mem (.abs hhll)) 0x2E#8 s := rfl
@[simp] theorem exec_bmi (dd : Byte) (s : State) :
    exec (.bmi dd) s = branchIf .n true dd 0x30#8 s := rfl
@[simp] theorem exec_andIndy (zz : Byte) (s : State) :
    exec (.andIndy zz) s = logicInto (· &&& ·) (.mem (.indy zz)) 0x31#8 s := rfl
@[simp] theorem exec_andZpx (zz : Byte) (s : State) :
    exec (.andZpx zz) s = logicInto (· &&& ·) (.mem (.zpx zz)) 0x35#8 s := rfl
@[simp] theorem exec_rolZpx (zz : Byte) (s : State) :
    exec (.rolZpx zz) s = shiftTarget shiftRol (.mem (.zpx zz)) 0x36#8 s := rfl
@[simp] theorem exec_sec (s : State) :
    exec .sec s = writeFlag .c true 0x38#8 s := rfl
@[simp] theorem exec_andAbsy (hhll : Addr) (s : State) :
    exec (.andAbsy hhll) s = logicInto (· &&& ·) (.mem (.absy hhll)) 0x39#8 s := rfl
@[simp] theorem exec_andAbsx (hhll : Addr) (s : State) :
    exec (.andAbsx hhll) s = logicInto (· &&& ·) (.mem (.absx hhll)) 0x3D#8 s := rfl
@[simp] theorem exec_rolAbsx (hhll : Addr) (s : State) :
    exec (.rolAbsx hhll) s = shiftTarget shiftRol (.mem (.absx hhll)) 0x3E#8 s := rfl
@[simp] theorem exec_rti (s : State) :
    exec .rti s = .next (s.leaveTrap.retire 0x40#8) := rfl
@[simp] theorem exec_eorIndx (zz : Byte) (s : State) :
    exec (.eorIndx zz) s = logicInto (· ^^^ ·) (.mem (.indx zz)) 0x41#8 s := rfl
@[simp] theorem exec_eorZp (zz : Byte) (s : State) :
    exec (.eorZp zz) s = logicInto (· ^^^ ·) (.mem (.zp zz)) 0x45#8 s := rfl
@[simp] theorem exec_lsrZp (zz : Byte) (s : State) :
    exec (.lsrZp zz) s = shiftTarget shiftLsr (.mem (.zp zz)) 0x46#8 s := rfl
@[simp] theorem exec_pha (s : State) :
    exec .pha s = .next ((s.push s.a).retire 0x48#8) := rfl
@[simp] theorem exec_eorImm (nn : Byte) (s : State) :
    exec (.eorImm nn) s = logicInto (· ^^^ ·) (.imm nn) 0x49#8 s := rfl
@[simp] theorem exec_lsrAcc (s : State) :
    exec .lsrAcc s = shiftTarget shiftLsr .acc 0x4A#8 s := rfl
@[simp] theorem exec_jmpAbs (hhll : Addr) (s : State) :
    exec (.jmpAbs hhll) s = jumpTo (.abs hhll) 0x4C#8 s := rfl
@[simp] theorem exec_eorAbs (hhll : Addr) (s : State) :
    exec (.eorAbs hhll) s = logicInto (· ^^^ ·) (.mem (.abs hhll)) 0x4D#8 s := rfl
@[simp] theorem exec_lsrAbs (hhll : Addr) (s : State) :
    exec (.lsrAbs hhll) s = shiftTarget shiftLsr (.mem (.abs hhll)) 0x4E#8 s := rfl
@[simp] theorem exec_bvc (dd : Byte) (s : State) :
    exec (.bvc dd) s = branchIf .v false dd 0x50#8 s := rfl
@[simp] theorem exec_eorIndy (zz : Byte) (s : State) :
    exec (.eorIndy zz) s = logicInto (· ^^^ ·) (.mem (.indy zz)) 0x51#8 s := rfl
@[simp] theorem exec_eorZpx (zz : Byte) (s : State) :
    exec (.eorZpx zz) s = logicInto (· ^^^ ·) (.mem (.zpx zz)) 0x55#8 s := rfl
@[simp] theorem exec_lsrZpx (zz : Byte) (s : State) :
    exec (.lsrZpx zz) s = shiftTarget shiftLsr (.mem (.zpx zz)) 0x56#8 s := rfl
@[simp] theorem exec_cli (s : State) :
    exec .cli s = writeFlag .i false 0x58#8 s := rfl
@[simp] theorem exec_eorAbsy (hhll : Addr) (s : State) :
    exec (.eorAbsy hhll) s = logicInto (· ^^^ ·) (.mem (.absy hhll)) 0x59#8 s := rfl
@[simp] theorem exec_eorAbsx (hhll : Addr) (s : State) :
    exec (.eorAbsx hhll) s = logicInto (· ^^^ ·) (.mem (.absx hhll)) 0x5D#8 s := rfl
@[simp] theorem exec_lsrAbsx (hhll : Addr) (s : State) :
    exec (.lsrAbsx hhll) s = shiftTarget shiftLsr (.mem (.absx hhll)) 0x5E#8 s := rfl
@[simp] theorem exec_rts (s : State) :
    exec .rts s = .next ((s.pullWord.2.jump (s.pullWord.1 + 1#16)).retire 0x60#8) := rfl
@[simp] theorem exec_adcIndx (zz : Byte) (s : State) :
    exec (.adcIndx zz) s = addInto (.mem (.indx zz)) 0x61#8 s := rfl
@[simp] theorem exec_adcZp (zz : Byte) (s : State) :
    exec (.adcZp zz) s = addInto (.mem (.zp zz)) 0x65#8 s := rfl
@[simp] theorem exec_rorZp (zz : Byte) (s : State) :
    exec (.rorZp zz) s = shiftTarget shiftRor (.mem (.zp zz)) 0x66#8 s := rfl
@[simp] theorem exec_pla (s : State) :
    exec .pla s = .next ((s.pull.2.setRegZN .a s.pull.1).retire 0x68#8) := rfl
@[simp] theorem exec_adcImm (nn : Byte) (s : State) :
    exec (.adcImm nn) s = addInto (.imm nn) 0x69#8 s := rfl
@[simp] theorem exec_rorAcc (s : State) :
    exec .rorAcc s = shiftTarget shiftRor .acc 0x6A#8 s := rfl
@[simp] theorem exec_jmpInd (hhll : Addr) (s : State) :
    exec (.jmpInd hhll) s = jumpTo (.ind hhll) 0x6C#8 s := rfl
@[simp] theorem exec_adcAbs (hhll : Addr) (s : State) :
    exec (.adcAbs hhll) s = addInto (.mem (.abs hhll)) 0x6D#8 s := rfl
@[simp] theorem exec_rorAbs (hhll : Addr) (s : State) :
    exec (.rorAbs hhll) s = shiftTarget shiftRor (.mem (.abs hhll)) 0x6E#8 s := rfl
@[simp] theorem exec_bvs (dd : Byte) (s : State) :
    exec (.bvs dd) s = branchIf .v true dd 0x70#8 s := rfl
@[simp] theorem exec_adcIndy (zz : Byte) (s : State) :
    exec (.adcIndy zz) s = addInto (.mem (.indy zz)) 0x71#8 s := rfl
@[simp] theorem exec_adcZpx (zz : Byte) (s : State) :
    exec (.adcZpx zz) s = addInto (.mem (.zpx zz)) 0x75#8 s := rfl
@[simp] theorem exec_rorZpx (zz : Byte) (s : State) :
    exec (.rorZpx zz) s = shiftTarget shiftRor (.mem (.zpx zz)) 0x76#8 s := rfl
@[simp] theorem exec_sei (s : State) :
    exec .sei s = writeFlag .i true 0x78#8 s := rfl
@[simp] theorem exec_adcAbsy (hhll : Addr) (s : State) :
    exec (.adcAbsy hhll) s = addInto (.mem (.absy hhll)) 0x79#8 s := rfl
@[simp] theorem exec_adcAbsx (hhll : Addr) (s : State) :
    exec (.adcAbsx hhll) s = addInto (.mem (.absx hhll)) 0x7D#8 s := rfl
@[simp] theorem exec_rorAbsx (hhll : Addr) (s : State) :
    exec (.rorAbsx hhll) s = shiftTarget shiftRor (.mem (.absx hhll)) 0x7E#8 s := rfl
@[simp] theorem exec_staIndx (zz : Byte) (s : State) :
    exec (.staIndx zz) s = storeFrom .a (.indx zz) 0x81#8 s := rfl
@[simp] theorem exec_styZp (zz : Byte) (s : State) :
    exec (.styZp zz) s = storeFrom .y (.zp zz) 0x84#8 s := rfl
@[simp] theorem exec_staZp (zz : Byte) (s : State) :
    exec (.staZp zz) s = storeFrom .a (.zp zz) 0x85#8 s := rfl
@[simp] theorem exec_stxZp (zz : Byte) (s : State) :
    exec (.stxZp zz) s = storeFrom .x (.zp zz) 0x86#8 s := rfl
@[simp] theorem exec_dey (s : State) :
    exec .dey s = stepReg decByte .y 0x88#8 s := rfl
@[simp] theorem exec_txa (s : State) :
    exec .txa s = transfer .x .a 0x8A#8 s := rfl
@[simp] theorem exec_styAbs (hhll : Addr) (s : State) :
    exec (.styAbs hhll) s = storeFrom .y (.abs hhll) 0x8C#8 s := rfl
@[simp] theorem exec_staAbs (hhll : Addr) (s : State) :
    exec (.staAbs hhll) s = storeFrom .a (.abs hhll) 0x8D#8 s := rfl
@[simp] theorem exec_stxAbs (hhll : Addr) (s : State) :
    exec (.stxAbs hhll) s = storeFrom .x (.abs hhll) 0x8E#8 s := rfl
@[simp] theorem exec_bcc (dd : Byte) (s : State) :
    exec (.bcc dd) s = branchIf .c false dd 0x90#8 s := rfl
@[simp] theorem exec_staIndy (zz : Byte) (s : State) :
    exec (.staIndy zz) s = storeFrom .a (.indy zz) 0x91#8 s := rfl
@[simp] theorem exec_styZpx (zz : Byte) (s : State) :
    exec (.styZpx zz) s = storeFrom .y (.zpx zz) 0x94#8 s := rfl
@[simp] theorem exec_staZpx (zz : Byte) (s : State) :
    exec (.staZpx zz) s = storeFrom .a (.zpx zz) 0x95#8 s := rfl
@[simp] theorem exec_stxZpy (zz : Byte) (s : State) :
    exec (.stxZpy zz) s = storeFrom .x (.zpy zz) 0x96#8 s := rfl
@[simp] theorem exec_tya (s : State) :
    exec .tya s = transfer .y .a 0x98#8 s := rfl
@[simp] theorem exec_staAbsy (hhll : Addr) (s : State) :
    exec (.staAbsy hhll) s = storeFrom .a (.absy hhll) 0x99#8 s := rfl
@[simp] theorem exec_txs (s : State) :
    exec .txs s = .next (State.retire { s with sp := s.x } 0x9A#8) := rfl
@[simp] theorem exec_staAbsx (hhll : Addr) (s : State) :
    exec (.staAbsx hhll) s = storeFrom .a (.absx hhll) 0x9D#8 s := rfl
@[simp] theorem exec_ldyImm (nn : Byte) (s : State) :
    exec (.ldyImm nn) s = loadInto .y (.imm nn) 0xA0#8 s := rfl
@[simp] theorem exec_ldaIndx (zz : Byte) (s : State) :
    exec (.ldaIndx zz) s = loadInto .a (.mem (.indx zz)) 0xA1#8 s := rfl
@[simp] theorem exec_ldxImm (nn : Byte) (s : State) :
    exec (.ldxImm nn) s = loadInto .x (.imm nn) 0xA2#8 s := rfl
@[simp] theorem exec_ldyZp (zz : Byte) (s : State) :
    exec (.ldyZp zz) s = loadInto .y (.mem (.zp zz)) 0xA4#8 s := rfl
@[simp] theorem exec_ldaZp (zz : Byte) (s : State) :
    exec (.ldaZp zz) s = loadInto .a (.mem (.zp zz)) 0xA5#8 s := rfl
@[simp] theorem exec_ldxZp (zz : Byte) (s : State) :
    exec (.ldxZp zz) s = loadInto .x (.mem (.zp zz)) 0xA6#8 s := rfl
@[simp] theorem exec_tay (s : State) :
    exec .tay s = transfer .a .y 0xA8#8 s := rfl
@[simp] theorem exec_ldaImm (nn : Byte) (s : State) :
    exec (.ldaImm nn) s = loadInto .a (.imm nn) 0xA9#8 s := rfl
@[simp] theorem exec_tax (s : State) :
    exec .tax s = transfer .a .x 0xAA#8 s := rfl
@[simp] theorem exec_ldyAbs (hhll : Addr) (s : State) :
    exec (.ldyAbs hhll) s = loadInto .y (.mem (.abs hhll)) 0xAC#8 s := rfl
@[simp] theorem exec_ldaAbs (hhll : Addr) (s : State) :
    exec (.ldaAbs hhll) s = loadInto .a (.mem (.abs hhll)) 0xAD#8 s := rfl
@[simp] theorem exec_ldxAbs (hhll : Addr) (s : State) :
    exec (.ldxAbs hhll) s = loadInto .x (.mem (.abs hhll)) 0xAE#8 s := rfl
@[simp] theorem exec_bcs (dd : Byte) (s : State) :
    exec (.bcs dd) s = branchIf .c true dd 0xB0#8 s := rfl
@[simp] theorem exec_ldaIndy (zz : Byte) (s : State) :
    exec (.ldaIndy zz) s = loadInto .a (.mem (.indy zz)) 0xB1#8 s := rfl
@[simp] theorem exec_ldyZpx (zz : Byte) (s : State) :
    exec (.ldyZpx zz) s = loadInto .y (.mem (.zpx zz)) 0xB4#8 s := rfl
@[simp] theorem exec_ldaZpx (zz : Byte) (s : State) :
    exec (.ldaZpx zz) s = loadInto .a (.mem (.zpx zz)) 0xB5#8 s := rfl
@[simp] theorem exec_ldxZpy (zz : Byte) (s : State) :
    exec (.ldxZpy zz) s = loadInto .x (.mem (.zpy zz)) 0xB6#8 s := rfl
@[simp] theorem exec_clv (s : State) :
    exec .clv s = writeFlag .v false 0xB8#8 s := rfl
@[simp] theorem exec_ldaAbsy (hhll : Addr) (s : State) :
    exec (.ldaAbsy hhll) s = loadInto .a (.mem (.absy hhll)) 0xB9#8 s := rfl
@[simp] theorem exec_tsx (s : State) :
    exec .tsx s = .next ((s.setRegZN .x s.sp).retire 0xBA#8) := rfl
@[simp] theorem exec_ldyAbsx (hhll : Addr) (s : State) :
    exec (.ldyAbsx hhll) s = loadInto .y (.mem (.absx hhll)) 0xBC#8 s := rfl
@[simp] theorem exec_ldaAbsx (hhll : Addr) (s : State) :
    exec (.ldaAbsx hhll) s = loadInto .a (.mem (.absx hhll)) 0xBD#8 s := rfl
@[simp] theorem exec_ldxAbsy (hhll : Addr) (s : State) :
    exec (.ldxAbsy hhll) s = loadInto .x (.mem (.absy hhll)) 0xBE#8 s := rfl
@[simp] theorem exec_cpyImm (nn : Byte) (s : State) :
    exec (.cpyImm nn) s = compareReg .y (.imm nn) 0xC0#8 s := rfl
@[simp] theorem exec_cmpIndx (zz : Byte) (s : State) :
    exec (.cmpIndx zz) s = compareReg .a (.mem (.indx zz)) 0xC1#8 s := rfl
@[simp] theorem exec_cpyZp (zz : Byte) (s : State) :
    exec (.cpyZp zz) s = compareReg .y (.mem (.zp zz)) 0xC4#8 s := rfl
@[simp] theorem exec_cmpZp (zz : Byte) (s : State) :
    exec (.cmpZp zz) s = compareReg .a (.mem (.zp zz)) 0xC5#8 s := rfl
@[simp] theorem exec_decZp (zz : Byte) (s : State) :
    exec (.decZp zz) s = stepMemory decByte (.zp zz) 0xC6#8 s := rfl
@[simp] theorem exec_iny (s : State) :
    exec .iny s = stepReg incByte .y 0xC8#8 s := rfl
@[simp] theorem exec_cmpImm (nn : Byte) (s : State) :
    exec (.cmpImm nn) s = compareReg .a (.imm nn) 0xC9#8 s := rfl
@[simp] theorem exec_dex (s : State) :
    exec .dex s = stepReg decByte .x 0xCA#8 s := rfl
@[simp] theorem exec_cpyAbs (hhll : Addr) (s : State) :
    exec (.cpyAbs hhll) s = compareReg .y (.mem (.abs hhll)) 0xCC#8 s := rfl
@[simp] theorem exec_cmpAbs (hhll : Addr) (s : State) :
    exec (.cmpAbs hhll) s = compareReg .a (.mem (.abs hhll)) 0xCD#8 s := rfl
@[simp] theorem exec_decAbs (hhll : Addr) (s : State) :
    exec (.decAbs hhll) s = stepMemory decByte (.abs hhll) 0xCE#8 s := rfl
@[simp] theorem exec_bne (dd : Byte) (s : State) :
    exec (.bne dd) s = branchIf .z false dd 0xD0#8 s := rfl
@[simp] theorem exec_cmpIndy (zz : Byte) (s : State) :
    exec (.cmpIndy zz) s = compareReg .a (.mem (.indy zz)) 0xD1#8 s := rfl
@[simp] theorem exec_cmpZpx (zz : Byte) (s : State) :
    exec (.cmpZpx zz) s = compareReg .a (.mem (.zpx zz)) 0xD5#8 s := rfl
@[simp] theorem exec_decZpx (zz : Byte) (s : State) :
    exec (.decZpx zz) s = stepMemory decByte (.zpx zz) 0xD6#8 s := rfl
@[simp] theorem exec_cld (s : State) :
    exec .cld s = writeFlag .d false 0xD8#8 s := rfl
@[simp] theorem exec_cmpAbsy (hhll : Addr) (s : State) :
    exec (.cmpAbsy hhll) s = compareReg .a (.mem (.absy hhll)) 0xD9#8 s := rfl
@[simp] theorem exec_cmpAbsx (hhll : Addr) (s : State) :
    exec (.cmpAbsx hhll) s = compareReg .a (.mem (.absx hhll)) 0xDD#8 s := rfl
@[simp] theorem exec_decAbsx (hhll : Addr) (s : State) :
    exec (.decAbsx hhll) s = stepMemory decByte (.absx hhll) 0xDE#8 s := rfl
@[simp] theorem exec_cpxImm (nn : Byte) (s : State) :
    exec (.cpxImm nn) s = compareReg .x (.imm nn) 0xE0#8 s := rfl
@[simp] theorem exec_sbcIndx (zz : Byte) (s : State) :
    exec (.sbcIndx zz) s = subtractFrom (.mem (.indx zz)) 0xE1#8 s := rfl
@[simp] theorem exec_cpxZp (zz : Byte) (s : State) :
    exec (.cpxZp zz) s = compareReg .x (.mem (.zp zz)) 0xE4#8 s := rfl
@[simp] theorem exec_sbcZp (zz : Byte) (s : State) :
    exec (.sbcZp zz) s = subtractFrom (.mem (.zp zz)) 0xE5#8 s := rfl
@[simp] theorem exec_incZp (zz : Byte) (s : State) :
    exec (.incZp zz) s = stepMemory incByte (.zp zz) 0xE6#8 s := rfl
@[simp] theorem exec_inx (s : State) :
    exec .inx s = stepReg incByte .x 0xE8#8 s := rfl
@[simp] theorem exec_sbcImm (nn : Byte) (s : State) :
    exec (.sbcImm nn) s = subtractFrom (.imm nn) 0xE9#8 s := rfl
@[simp] theorem exec_nop (s : State) :
    exec .nop s = .next (s.retire 0xEA#8) := rfl
@[simp] theorem exec_cpxAbs (hhll : Addr) (s : State) :
    exec (.cpxAbs hhll) s = compareReg .x (.mem (.abs hhll)) 0xEC#8 s := rfl
@[simp] theorem exec_sbcAbs (hhll : Addr) (s : State) :
    exec (.sbcAbs hhll) s = subtractFrom (.mem (.abs hhll)) 0xED#8 s := rfl
@[simp] theorem exec_incAbs (hhll : Addr) (s : State) :
    exec (.incAbs hhll) s = stepMemory incByte (.abs hhll) 0xEE#8 s := rfl
@[simp] theorem exec_beq (dd : Byte) (s : State) :
    exec (.beq dd) s = branchIf .z true dd 0xF0#8 s := rfl
@[simp] theorem exec_sbcIndy (zz : Byte) (s : State) :
    exec (.sbcIndy zz) s = subtractFrom (.mem (.indy zz)) 0xF1#8 s := rfl
@[simp] theorem exec_sbcZpx (zz : Byte) (s : State) :
    exec (.sbcZpx zz) s = subtractFrom (.mem (.zpx zz)) 0xF5#8 s := rfl
@[simp] theorem exec_incZpx (zz : Byte) (s : State) :
    exec (.incZpx zz) s = stepMemory incByte (.zpx zz) 0xF6#8 s := rfl
@[simp] theorem exec_sed (s : State) :
    exec .sed s = writeFlag .d true 0xF8#8 s := rfl
@[simp] theorem exec_sbcAbsy (hhll : Addr) (s : State) :
    exec (.sbcAbsy hhll) s = subtractFrom (.mem (.absy hhll)) 0xF9#8 s := rfl
@[simp] theorem exec_sbcAbsx (hhll : Addr) (s : State) :
    exec (.sbcAbsx hhll) s = subtractFrom (.mem (.absx hhll)) 0xFD#8 s := rfl
@[simp] theorem exec_incAbsx (hhll : Addr) (s : State) :
    exec (.incAbsx hhll) s = stepMemory incByte (.absx hhll) 0xFE#8 s := rfl
@[simp] theorem exec_unassigned (op : Byte) (s : State) : exec (.unassigned op) s = .next (s.returning 0#8) := rfl

end Sys2Proof.Machine
end

