-- ==== Sys2Proof/Laws/Fetch.lean ====
section
/-! SUPPORT. The fetch of one instruction: the instruction the bytes at `pc` encode, `pc` past them, one read for each. -/

namespace Sys2Proof.Machine

/-- Two fetched bytes making a word, low byte first (R10, R76). -/
theorem State.fetch16_eq (s : State) :
    s.fetch16 =
      (wordOf (s.peek (s.pc + 1#16)) (s.peek s.pc),
        { s with
          pc := s.pc + 1#16 + 1#16
          accesses := s.accesses ++ [.read s.pc (s.peek s.pc), .read (s.pc + 1#16) (s.peek (s.pc + 1#16))] }) := by
  have h : s.fetch16 =
      (wordOf (s.peek (s.pc + 1#16)) (s.peek s.pc),
        { s with
          pc := s.pc + 1#16 + 1#16
          accesses := s.accesses ++ [.read s.pc (s.peek s.pc)] ++ [.read (s.pc + 1#16) (s.peek (s.pc + 1#16))] }) := rfl
  rw [h, List.append_assoc]
  rfl

/-- An opcode without operand bytes: one byte is fetched (R62, R76, R95). -/
theorem State.fetchInstr_plain {s : State} {i : Instr} (h : opcodeEntry (s.peek s.pc) = .plain i) :
    s.fetchInstr =
      (i, { s with pc := s.pc + 1#16, accesses := s.accesses ++ [.read s.pc (s.peek s.pc)] }) := by
  simp only [State.fetchInstr, State.fetch8_eq, h]

/-- An opcode with one operand byte: two bytes are fetched (R62, R76). -/
theorem State.fetchInstr_byte {s : State} {f : Byte → Instr} (h : opcodeEntry (s.peek s.pc) = .byte f) :
    s.fetchInstr =
      (f (s.peek (s.pc + 1#16)),
        { s with
          pc := s.pc + 1#16 + 1#16
          accesses := s.accesses ++ [.read s.pc (s.peek s.pc), .read (s.pc + 1#16) (s.peek (s.pc + 1#16))] }) := by
  have e : s.fetchInstr = (f (s.fetch8.2.peek (s.pc + 1#16)), s.fetch8.2.fetch8.2) := by
    simp only [State.fetchInstr, State.fetch8_eq, h]
  rw [e]
  exact congrArg (fun r => (f (s.peek (s.pc + 1#16)), r)) (congrArg Prod.snd (State.fetch16_eq s))

/-- An opcode with an operand word: three bytes are fetched, the word's low byte first (R62, R63, R76). -/
theorem State.fetchInstr_word {s : State} {f : Addr → Instr} (h : opcodeEntry (s.peek s.pc) = .word f) :
    s.fetchInstr =
      (f (wordOf (s.peek (s.pc + 1#16 + 1#16)) (s.peek (s.pc + 1#16))),
        { s with
          pc := s.pc + 1#16 + 1#16 + 1#16
          accesses := s.accesses ++
            [.read s.pc (s.peek s.pc), .read (s.pc + 1#16) (s.peek (s.pc + 1#16)),
              .read (s.pc + 1#16 + 1#16) (s.peek (s.pc + 1#16 + 1#16))] }) := by
  have e : s.fetchInstr =
      (f (wordOf (s.peek (s.pc + 1#16 + 1#16)) (s.peek (s.pc + 1#16))),
        { s with
          pc := s.pc + 1#16 + 1#16 + 1#16
          accesses := s.accesses ++ [.read s.pc (s.peek s.pc)] ++
            [.read (s.pc + 1#16) (s.peek (s.pc + 1#16)), .read (s.pc + 1#16 + 1#16) (s.peek (s.pc + 1#16 + 1#16))] }) := by
    simp only [State.fetchInstr, State.fetch8_eq, h, State.fetch16_eq]
    rfl
  rw [e, List.append_assoc]
  rfl

/-- The fetch advances `pc` and records its reads; every other field stands. -/
theorem State.fetchInstr_frame (s : State) :
    s.fetchInstr.2 = { s with pc := s.fetchInstr.2.pc, accesses := s.fetchInstr.2.accesses } := by
  cases h : opcodeEntry (s.peek s.pc) with
  | plain i => rw [State.fetchInstr_plain h]
  | byte f => rw [State.fetchInstr_byte h]
  | word f => rw [State.fetchInstr_word h]

end Sys2Proof.Machine
end

