-- ==== Sys2Proof/Laws/PerInstr.lean ====
section
/-! SUPPORT. A family of statements about the instruction as syntax, one lemma per constructor. -/

/-- An instruction's bytes: as many as its format has (R61, R62), the first of them the one the opcode table gives its
mnemonic and format (R65, R97). -/
def Sys2Proof.Laws.EncodesAsItsFormat.Statement (i : Sys2Proof.Instr) : Prop :=
  i.wellFormed = true → (Sys2Proof.encode i).length = i.format.length ∧
    Sys2Proof.decodeOpcode i.opcode = (i.mnemonic, i.format)

namespace Sys2Proof.Laws.EncodesAsItsFormat

/-- An entry is the unassigned one of a byte. -/
def isEntryOfUnassigned (op : Byte) : OpcodeEntry → Bool
  | .plain (.unassigned o) => o == op
  | _ => false

theorem entry_check : ∀ op : Byte, isUnassigned op = isEntryOfUnassigned op (opcodeEntry op) := by decide

/-- The bytes of R66 are those whose entry of the table is the unassigned one. -/
theorem entry_of_unassigned (op : Byte) (h : isUnassigned op = true) : opcodeEntry op = .plain (.unassigned op) := by
  rw [entry_check] at h
  generalize opcodeEntry op = e at h
  unfold isEntryOfUnassigned at h
  split at h
  · rw [beq_iff_eq.mp h]
  · exact absurd h (by decide)

theorem brk : Statement (.brk) := fun _ => ⟨rfl, rfl⟩

theorem oraIndx (zz : Byte) : Statement (.oraIndx zz) := fun _ => ⟨rfl, rfl⟩

theorem oraZp (zz : Byte) : Statement (.oraZp zz) := fun _ => ⟨rfl, rfl⟩

theorem aslZp (zz : Byte) : Statement (.aslZp zz) := fun _ => ⟨rfl, rfl⟩

theorem php : Statement (.php) := fun _ => ⟨rfl, rfl⟩

theorem oraImm (nn : Byte) : Statement (.oraImm nn) := fun _ => ⟨rfl, rfl⟩

theorem aslAcc : Statement (.aslAcc) := fun _ => ⟨rfl, rfl⟩

theorem oraAbs (hhll : Addr) : Statement (.oraAbs hhll) := fun _ => ⟨rfl, rfl⟩

theorem aslAbs (hhll : Addr) : Statement (.aslAbs hhll) := fun _ => ⟨rfl, rfl⟩

theorem bpl (dd : Byte) : Statement (.bpl dd) := fun _ => ⟨rfl, rfl⟩

theorem oraIndy (zz : Byte) : Statement (.oraIndy zz) := fun _ => ⟨rfl, rfl⟩

theorem oraZpx (zz : Byte) : Statement (.oraZpx zz) := fun _ => ⟨rfl, rfl⟩

theorem aslZpx (zz : Byte) : Statement (.aslZpx zz) := fun _ => ⟨rfl, rfl⟩

theorem clc : Statement (.clc) := fun _ => ⟨rfl, rfl⟩

theorem oraAbsy (hhll : Addr) : Statement (.oraAbsy hhll) := fun _ => ⟨rfl, rfl⟩

theorem oraAbsx (hhll : Addr) : Statement (.oraAbsx hhll) := fun _ => ⟨rfl, rfl⟩

theorem aslAbsx (hhll : Addr) : Statement (.aslAbsx hhll) := fun _ => ⟨rfl, rfl⟩

theorem jsr (hhll : Addr) : Statement (.jsr hhll) := fun _ => ⟨rfl, rfl⟩

theorem andIndx (zz : Byte) : Statement (.andIndx zz) := fun _ => ⟨rfl, rfl⟩

theorem bitZp (zz : Byte) : Statement (.bitZp zz) := fun _ => ⟨rfl, rfl⟩

theorem andZp (zz : Byte) : Statement (.andZp zz) := fun _ => ⟨rfl, rfl⟩

theorem rolZp (zz : Byte) : Statement (.rolZp zz) := fun _ => ⟨rfl, rfl⟩

theorem plp : Statement (.plp) := fun _ => ⟨rfl, rfl⟩

theorem andImm (nn : Byte) : Statement (.andImm nn) := fun _ => ⟨rfl, rfl⟩

theorem rolAcc : Statement (.rolAcc) := fun _ => ⟨rfl, rfl⟩

theorem bitAbs (hhll : Addr) : Statement (.bitAbs hhll) := fun _ => ⟨rfl, rfl⟩

theorem andAbs (hhll : Addr) : Statement (.andAbs hhll) := fun _ => ⟨rfl, rfl⟩

theorem rolAbs (hhll : Addr) : Statement (.rolAbs hhll) := fun _ => ⟨rfl, rfl⟩

theorem bmi (dd : Byte) : Statement (.bmi dd) := fun _ => ⟨rfl, rfl⟩

theorem andIndy (zz : Byte) : Statement (.andIndy zz) := fun _ => ⟨rfl, rfl⟩

theorem andZpx (zz : Byte) : Statement (.andZpx zz) := fun _ => ⟨rfl, rfl⟩

theorem rolZpx (zz : Byte) : Statement (.rolZpx zz) := fun _ => ⟨rfl, rfl⟩

theorem sec : Statement (.sec) := fun _ => ⟨rfl, rfl⟩

theorem andAbsy (hhll : Addr) : Statement (.andAbsy hhll) := fun _ => ⟨rfl, rfl⟩

theorem andAbsx (hhll : Addr) : Statement (.andAbsx hhll) := fun _ => ⟨rfl, rfl⟩

theorem rolAbsx (hhll : Addr) : Statement (.rolAbsx hhll) := fun _ => ⟨rfl, rfl⟩

theorem rti : Statement (.rti) := fun _ => ⟨rfl, rfl⟩

theorem eorIndx (zz : Byte) : Statement (.eorIndx zz) := fun _ => ⟨rfl, rfl⟩

theorem eorZp (zz : Byte) : Statement (.eorZp zz) := fun _ => ⟨rfl, rfl⟩

theorem lsrZp (zz : Byte) : Statement (.lsrZp zz) := fun _ => ⟨rfl, rfl⟩

theorem pha : Statement (.pha) := fun _ => ⟨rfl, rfl⟩

theorem eorImm (nn : Byte) : Statement (.eorImm nn) := fun _ => ⟨rfl, rfl⟩

theorem lsrAcc : Statement (.lsrAcc) := fun _ => ⟨rfl, rfl⟩

theorem jmpAbs (hhll : Addr) : Statement (.jmpAbs hhll) := fun _ => ⟨rfl, rfl⟩

theorem eorAbs (hhll : Addr) : Statement (.eorAbs hhll) := fun _ => ⟨rfl, rfl⟩

theorem lsrAbs (hhll : Addr) : Statement (.lsrAbs hhll) := fun _ => ⟨rfl, rfl⟩

theorem bvc (dd : Byte) : Statement (.bvc dd) := fun _ => ⟨rfl, rfl⟩

theorem eorIndy (zz : Byte) : Statement (.eorIndy zz) := fun _ => ⟨rfl, rfl⟩

theorem eorZpx (zz : Byte) : Statement (.eorZpx zz) := fun _ => ⟨rfl, rfl⟩

theorem lsrZpx (zz : Byte) : Statement (.lsrZpx zz) := fun _ => ⟨rfl, rfl⟩

theorem cli : Statement (.cli) := fun _ => ⟨rfl, rfl⟩

theorem eorAbsy (hhll : Addr) : Statement (.eorAbsy hhll) := fun _ => ⟨rfl, rfl⟩

theorem eorAbsx (hhll : Addr) : Statement (.eorAbsx hhll) := fun _ => ⟨rfl, rfl⟩

theorem lsrAbsx (hhll : Addr) : Statement (.lsrAbsx hhll) := fun _ => ⟨rfl, rfl⟩

theorem rts : Statement (.rts) := fun _ => ⟨rfl, rfl⟩

theorem adcIndx (zz : Byte) : Statement (.adcIndx zz) := fun _ => ⟨rfl, rfl⟩

theorem adcZp (zz : Byte) : Statement (.adcZp zz) := fun _ => ⟨rfl, rfl⟩

theorem rorZp (zz : Byte) : Statement (.rorZp zz) := fun _ => ⟨rfl, rfl⟩

theorem pla : Statement (.pla) := fun _ => ⟨rfl, rfl⟩

theorem adcImm (nn : Byte) : Statement (.adcImm nn) := fun _ => ⟨rfl, rfl⟩

theorem rorAcc : Statement (.rorAcc) := fun _ => ⟨rfl, rfl⟩

theorem jmpInd (hhll : Addr) : Statement (.jmpInd hhll) := fun _ => ⟨rfl, rfl⟩

theorem adcAbs (hhll : Addr) : Statement (.adcAbs hhll) := fun _ => ⟨rfl, rfl⟩

theorem rorAbs (hhll : Addr) : Statement (.rorAbs hhll) := fun _ => ⟨rfl, rfl⟩

theorem bvs (dd : Byte) : Statement (.bvs dd) := fun _ => ⟨rfl, rfl⟩

theorem adcIndy (zz : Byte) : Statement (.adcIndy zz) := fun _ => ⟨rfl, rfl⟩

theorem adcZpx (zz : Byte) : Statement (.adcZpx zz) := fun _ => ⟨rfl, rfl⟩

theorem rorZpx (zz : Byte) : Statement (.rorZpx zz) := fun _ => ⟨rfl, rfl⟩

theorem sei : Statement (.sei) := fun _ => ⟨rfl, rfl⟩

theorem adcAbsy (hhll : Addr) : Statement (.adcAbsy hhll) := fun _ => ⟨rfl, rfl⟩

theorem adcAbsx (hhll : Addr) : Statement (.adcAbsx hhll) := fun _ => ⟨rfl, rfl⟩

theorem rorAbsx (hhll : Addr) : Statement (.rorAbsx hhll) := fun _ => ⟨rfl, rfl⟩

theorem staIndx (zz : Byte) : Statement (.staIndx zz) := fun _ => ⟨rfl, rfl⟩

theorem styZp (zz : Byte) : Statement (.styZp zz) := fun _ => ⟨rfl, rfl⟩

theorem staZp (zz : Byte) : Statement (.staZp zz) := fun _ => ⟨rfl, rfl⟩

theorem stxZp (zz : Byte) : Statement (.stxZp zz) := fun _ => ⟨rfl, rfl⟩

theorem dey : Statement (.dey) := fun _ => ⟨rfl, rfl⟩

theorem txa : Statement (.txa) := fun _ => ⟨rfl, rfl⟩

theorem styAbs (hhll : Addr) : Statement (.styAbs hhll) := fun _ => ⟨rfl, rfl⟩

theorem staAbs (hhll : Addr) : Statement (.staAbs hhll) := fun _ => ⟨rfl, rfl⟩

theorem stxAbs (hhll : Addr) : Statement (.stxAbs hhll) := fun _ => ⟨rfl, rfl⟩

theorem bcc (dd : Byte) : Statement (.bcc dd) := fun _ => ⟨rfl, rfl⟩

theorem staIndy (zz : Byte) : Statement (.staIndy zz) := fun _ => ⟨rfl, rfl⟩

theorem styZpx (zz : Byte) : Statement (.styZpx zz) := fun _ => ⟨rfl, rfl⟩

theorem staZpx (zz : Byte) : Statement (.staZpx zz) := fun _ => ⟨rfl, rfl⟩

theorem stxZpy (zz : Byte) : Statement (.stxZpy zz) := fun _ => ⟨rfl, rfl⟩

theorem tya : Statement (.tya) := fun _ => ⟨rfl, rfl⟩

theorem staAbsy (hhll : Addr) : Statement (.staAbsy hhll) := fun _ => ⟨rfl, rfl⟩

theorem txs : Statement (.txs) := fun _ => ⟨rfl, rfl⟩

theorem staAbsx (hhll : Addr) : Statement (.staAbsx hhll) := fun _ => ⟨rfl, rfl⟩

theorem ldyImm (nn : Byte) : Statement (.ldyImm nn) := fun _ => ⟨rfl, rfl⟩

theorem ldaIndx (zz : Byte) : Statement (.ldaIndx zz) := fun _ => ⟨rfl, rfl⟩

theorem ldxImm (nn : Byte) : Statement (.ldxImm nn) := fun _ => ⟨rfl, rfl⟩

theorem ldyZp (zz : Byte) : Statement (.ldyZp zz) := fun _ => ⟨rfl, rfl⟩

theorem ldaZp (zz : Byte) : Statement (.ldaZp zz) := fun _ => ⟨rfl, rfl⟩

theorem ldxZp (zz : Byte) : Statement (.ldxZp zz) := fun _ => ⟨rfl, rfl⟩

theorem tay : Statement (.tay) := fun _ => ⟨rfl, rfl⟩

theorem ldaImm (nn : Byte) : Statement (.ldaImm nn) := fun _ => ⟨rfl, rfl⟩

theorem tax : Statement (.tax) := fun _ => ⟨rfl, rfl⟩

theorem ldyAbs (hhll : Addr) : Statement (.ldyAbs hhll) := fun _ => ⟨rfl, rfl⟩

theorem ldaAbs (hhll : Addr) : Statement (.ldaAbs hhll) := fun _ => ⟨rfl, rfl⟩

theorem ldxAbs (hhll : Addr) : Statement (.ldxAbs hhll) := fun _ => ⟨rfl, rfl⟩

theorem bcs (dd : Byte) : Statement (.bcs dd) := fun _ => ⟨rfl, rfl⟩

theorem ldaIndy (zz : Byte) : Statement (.ldaIndy zz) := fun _ => ⟨rfl, rfl⟩

theorem ldyZpx (zz : Byte) : Statement (.ldyZpx zz) := fun _ => ⟨rfl, rfl⟩

theorem ldaZpx (zz : Byte) : Statement (.ldaZpx zz) := fun _ => ⟨rfl, rfl⟩

theorem ldxZpy (zz : Byte) : Statement (.ldxZpy zz) := fun _ => ⟨rfl, rfl⟩

theorem clv : Statement (.clv) := fun _ => ⟨rfl, rfl⟩

theorem ldaAbsy (hhll : Addr) : Statement (.ldaAbsy hhll) := fun _ => ⟨rfl, rfl⟩

theorem tsx : Statement (.tsx) := fun _ => ⟨rfl, rfl⟩

theorem ldyAbsx (hhll : Addr) : Statement (.ldyAbsx hhll) := fun _ => ⟨rfl, rfl⟩

theorem ldaAbsx (hhll : Addr) : Statement (.ldaAbsx hhll) := fun _ => ⟨rfl, rfl⟩

theorem ldxAbsy (hhll : Addr) : Statement (.ldxAbsy hhll) := fun _ => ⟨rfl, rfl⟩

theorem cpyImm (nn : Byte) : Statement (.cpyImm nn) := fun _ => ⟨rfl, rfl⟩

theorem cmpIndx (zz : Byte) : Statement (.cmpIndx zz) := fun _ => ⟨rfl, rfl⟩

theorem cpyZp (zz : Byte) : Statement (.cpyZp zz) := fun _ => ⟨rfl, rfl⟩

theorem cmpZp (zz : Byte) : Statement (.cmpZp zz) := fun _ => ⟨rfl, rfl⟩

theorem decZp (zz : Byte) : Statement (.decZp zz) := fun _ => ⟨rfl, rfl⟩

theorem iny : Statement (.iny) := fun _ => ⟨rfl, rfl⟩

theorem cmpImm (nn : Byte) : Statement (.cmpImm nn) := fun _ => ⟨rfl, rfl⟩

theorem dex : Statement (.dex) := fun _ => ⟨rfl, rfl⟩

theorem cpyAbs (hhll : Addr) : Statement (.cpyAbs hhll) := fun _ => ⟨rfl, rfl⟩

theorem cmpAbs (hhll : Addr) : Statement (.cmpAbs hhll) := fun _ => ⟨rfl, rfl⟩

theorem decAbs (hhll : Addr) : Statement (.decAbs hhll) := fun _ => ⟨rfl, rfl⟩

theorem bne (dd : Byte) : Statement (.bne dd) := fun _ => ⟨rfl, rfl⟩

theorem cmpIndy (zz : Byte) : Statement (.cmpIndy zz) := fun _ => ⟨rfl, rfl⟩

theorem cmpZpx (zz : Byte) : Statement (.cmpZpx zz) := fun _ => ⟨rfl, rfl⟩

theorem decZpx (zz : Byte) : Statement (.decZpx zz) := fun _ => ⟨rfl, rfl⟩

theorem cld : Statement (.cld) := fun _ => ⟨rfl, rfl⟩

theorem cmpAbsy (hhll : Addr) : Statement (.cmpAbsy hhll) := fun _ => ⟨rfl, rfl⟩

theorem cmpAbsx (hhll : Addr) : Statement (.cmpAbsx hhll) := fun _ => ⟨rfl, rfl⟩

theorem decAbsx (hhll : Addr) : Statement (.decAbsx hhll) := fun _ => ⟨rfl, rfl⟩

theorem cpxImm (nn : Byte) : Statement (.cpxImm nn) := fun _ => ⟨rfl, rfl⟩

theorem sbcIndx (zz : Byte) : Statement (.sbcIndx zz) := fun _ => ⟨rfl, rfl⟩

theorem cpxZp (zz : Byte) : Statement (.cpxZp zz) := fun _ => ⟨rfl, rfl⟩

theorem sbcZp (zz : Byte) : Statement (.sbcZp zz) := fun _ => ⟨rfl, rfl⟩

theorem incZp (zz : Byte) : Statement (.incZp zz) := fun _ => ⟨rfl, rfl⟩

theorem inx : Statement (.inx) := fun _ => ⟨rfl, rfl⟩

theorem sbcImm (nn : Byte) : Statement (.sbcImm nn) := fun _ => ⟨rfl, rfl⟩

theorem nop : Statement (.nop) := fun _ => ⟨rfl, rfl⟩

theorem cpxAbs (hhll : Addr) : Statement (.cpxAbs hhll) := fun _ => ⟨rfl, rfl⟩

theorem sbcAbs (hhll : Addr) : Statement (.sbcAbs hhll) := fun _ => ⟨rfl, rfl⟩

theorem incAbs (hhll : Addr) : Statement (.incAbs hhll) := fun _ => ⟨rfl, rfl⟩

theorem beq (dd : Byte) : Statement (.beq dd) := fun _ => ⟨rfl, rfl⟩

theorem sbcIndy (zz : Byte) : Statement (.sbcIndy zz) := fun _ => ⟨rfl, rfl⟩

theorem sbcZpx (zz : Byte) : Statement (.sbcZpx zz) := fun _ => ⟨rfl, rfl⟩

theorem incZpx (zz : Byte) : Statement (.incZpx zz) := fun _ => ⟨rfl, rfl⟩

theorem sed : Statement (.sed) := fun _ => ⟨rfl, rfl⟩

theorem sbcAbsy (hhll : Addr) : Statement (.sbcAbsy hhll) := fun _ => ⟨rfl, rfl⟩

theorem sbcAbsx (hhll : Addr) : Statement (.sbcAbsx hhll) := fun _ => ⟨rfl, rfl⟩

theorem incAbsx (hhll : Addr) : Statement (.incAbsx hhll) := fun _ => ⟨rfl, rfl⟩

theorem unassigned (op : Byte) : Statement (.unassigned op) := fun h => ⟨rfl, by
  have e := entry_of_unassigned op h
  simp only [Instr.opcode, decodeOpcode, e, Instr.mnemonic, Instr.format]⟩

end Sys2Proof.Laws.EncodesAsItsFormat
end

