-- ==== Sys2Proof/Laws/Opcode.lean ====
section
/-! SUPPORT. What an opcode byte says of the instruction it begins: its mnemonic, its format, whether it is unassigned, and
the counts of the branches. -/

namespace Sys2Proof

set_option maxRecDepth 100000 in
/-- The bytes of R66's list are those that decode to no instruction of R65 (R97). -/
theorem isUnassigned_eq : ∀ op : Byte, isUnassigned op = ((decodeOpcode op).1 == Mnemonic.unassigned) := by decide

/-- The opcode byte of a well-formed instruction decodes to its mnemonic and its format (R61, R97). -/
theorem decodeOpcode_opcode {i : Instr} (h : i.wellFormed = true) : decodeOpcode i.opcode = (i.mnemonic, i.format) := by
  cases i with
  | unassigned op =>
    have e := Laws.EncodesAsItsFormat.entry_of_unassigned op h
    simp [Instr.opcode, Instr.mnemonic, Instr.format, decodeOpcode, e]
  | _ => simp [Instr.opcode, Instr.mnemonic, Instr.format, decodeOpcode]

theorem isUnassigned_opcode {i : Instr} (h : i.wellFormed = true) :
    isUnassigned i.opcode = (i.mnemonic == Mnemonic.unassigned) := by
  rw [isUnassigned_eq, decodeOpcode_opcode h]

/-- Every branch has a base count of 2 (R198). -/
theorem baseCycles_branch {i : Instr} (h : i.format = .rel) : Machine.baseCycles i.opcode = 2#8 := by
  cases i <;> first | (simp [Instr.format] at h; done) | rfl

end Sys2Proof
end

