-- ==== Sys2Proof/Tests/Slice0.lean ====
section
/-! SUPPORT. Tests of the model. -/

namespace Sys2Proof.Tests

open Sys2Proof.Machine Sys2Proof.Claims

/-- A machine on `FlatBus` with the registers, the seeds, and the code at `pc`. -/
def flat (c : CPUState) (seeds : List (Addr × Byte)) (code : List Byte) : State :=
  State.seedBytes
    (seeds.foldl (fun s d => s.seed d.1 d.2)
      { pc := c.pc, sp := c.sp, a := c.a, x := c.x, y := c.y, status := c.status, bus := .flat, ram := [], prg := [],
        events := [], cycles := none, accesses := [] })
    c.pc code

/-- The bytes a list of accesses writes, in order. -/
def writesOf : List Access → List (Addr × Byte)
  | [] => []
  | .read _ _ :: l => writesOf l
  | .write addr v :: l => (addr, v) :: writesOf l

/-- What one tick shows: the registers, the returned count, and the writes. -/
def seen (s : State) : Option (CPUState × Option Byte × List (Addr × Byte)) :=
  match step s with
  | .next t => some (t.snapshot, t.cycles, writesOf t.accesses)
  | .fault _ => none
  | .refused _ => none

/-! One tick each: vectors of spec/95, derived there from the rules. -/

/-- E1 of spec/95: zp. -/
theorem test_ldaZp_E1 :
    seen (flat ⟨0x0200, 0xFD, 0x00, 0x00, 0x00, 0x24⟩ [(0x0010, 0x42)] [0xA5, 0x10]) =
      some (⟨0x0202, 0xFD, 0x42, 0x00, 0x00, 0x24⟩, some 3, []) := by decide

/-- E2 of spec/95: zp,X wraps: F0+20 = 10. -/
theorem test_ldaZpx_E2 :
    seen (flat ⟨0x0200, 0xFD, 0x00, 0x20, 0x00, 0x24⟩ [(0x0010, 0x99)] [0xB5, 0xF0]) =
      some (⟨0x0202, 0xFD, 0x99, 0x20, 0x00, 0xA4⟩, some 4, []) := by decide

/-- E3 of spec/95: zp,Y wraps: FF+02 = 01. -/
theorem test_ldxZpy_E3 :
    seen (flat ⟨0x0200, 0xFD, 0x00, 0x00, 0x02, 0x24⟩ [(0x0001, 0x00)] [0xB6, 0xFF]) =
      some (⟨0x0202, 0xFD, 0x00, 0x00, 0x02, 0x26⟩, some 4, []) := by decide

/-- E4 of spec/95: abs, little-endian operand. -/
theorem test_ldaAbs_E4 :
    seen (flat ⟨0x0200, 0xFD, 0x00, 0x00, 0x00, 0x24⟩ [(0x1234, 0x7F)] [0xAD, 0x34, 0x12]) =
      some (⟨0x0203, 0xFD, 0x7F, 0x00, 0x00, 0x24⟩, some 4, []) := by decide

/-- E5 of spec/95: abs,X crosses a page: no extra cycle (R196). -/
theorem test_ldaAbsx_E5 :
    seen (flat ⟨0x0200, 0xFD, 0x00, 0x01, 0x00, 0x24⟩ [(0x1300, 0x01)] [0xBD, 0xFF, 0x12]) =
      some (⟨0x0203, 0xFD, 0x01, 0x01, 0x00, 0x24⟩, some 4, []) := by decide

/-- E6 of spec/95: abs,Y wraps at 16 bits: FFFF+2 = 0001. -/
theorem test_ldaAbsy_E6 :
    seen (flat ⟨0x0200, 0xFD, 0x00, 0x00, 0x02, 0x24⟩ [(0x0001, 0x55)] [0xB9, 0xFF, 0xFF]) =
      some (⟨0x0203, 0xFD, 0x55, 0x00, 0x02, 0x24⟩, some 4, []) := by decide

/-- E7 of spec/95: (zp,X): pointer at 24. -/
theorem test_ldaIndx_E7 :
    seen (flat ⟨0x0200, 0xFD, 0x00, 0x04, 0x00, 0x24⟩ [(0x0024, 0x00), (0x0025, 0x30), (0x3000, 0xAB)] [0xA1, 0x20]) =
      some (⟨0x0202, 0xFD, 0xAB, 0x04, 0x00, 0xA4⟩, some 6, []) := by decide

/-- E8 of spec/95: (zp,X): pointer at FF, high byte from 00 (D3). -/
theorem test_ldaIndx_E8 :
    seen (flat ⟨0x0200, 0xFD, 0x00, 0x01, 0x00, 0x24⟩ [(0x00FF, 0x34), (0x0000, 0x12), (0x1234, 0x5A)] [0xA1, 0xFE]) =
      some (⟨0x0202, 0xFD, 0x5A, 0x01, 0x00, 0x24⟩, some 6, []) := by decide

/-- E9 of spec/95: (zp),Y: 12F8+10 carries into high byte, no extra cycle. -/
theorem test_ldaIndy_E9 :
    seen (flat ⟨0x0200, 0xFD, 0x00, 0x00, 0x10, 0x24⟩ [(0x0040, 0xF8), (0x0041, 0x12), (0x1308, 0x66)] [0xB1, 0x40]) =
      some (⟨0x0202, 0xFD, 0x66, 0x00, 0x10, 0x24⟩, some 5, []) := by decide

/-- E10 of spec/95: (zp),Y: pointer at FF, high byte from 00 (D3). -/
theorem test_ldaIndy_E10 :
    seen (flat ⟨0x0200, 0xFD, 0x00, 0x00, 0x00, 0x24⟩ [(0x00FF, 0x00), (0x0000, 0x04), (0x0400, 0x80)] [0xB1, 0xFF]) =
      some (⟨0x0202, 0xFD, 0x80, 0x00, 0x00, 0xA4⟩, some 5, []) := by decide

/-- E12 of spec/95: unassigned 0x02: pc+1 only, 0 cycles; next tick executes A9 00. -/
theorem test_unassigned_E12 :
    seen (flat ⟨0x0200, 0xFD, 0x11, 0x00, 0x00, 0x24⟩ [] [0x02, 0xA9, 0x00]) =
      some (⟨0x0201, 0xFD, 0x11, 0x00, 0x00, 0x24⟩, some 0, []) := by decide

/-- E13 of spec/95: unassigned 0xFF: no flag changes. -/
theorem test_unassigned_E13 :
    seen (flat ⟨0x0200, 0xFD, 0x00, 0x00, 0x00, 0xE7⟩ [] [0xFF]) =
      some (⟨0x0201, 0xFD, 0x00, 0x00, 0x00, 0xE7⟩, some 0, []) := by decide

/-- E15 of spec/95: pc wraps FFFF -> 0000. -/
theorem test_nop_E15 :
    seen (flat ⟨0xFFFF, 0xFD, 0x00, 0x00, 0x00, 0x24⟩ [] [0xEA]) =
      some (⟨0x0000, 0xFD, 0x00, 0x00, 0x00, 0x24⟩, some 2, []) := by decide

/-- E16 of spec/95: operand fetched from 0000 after pc wrap. -/
theorem test_ldaImm_E16 :
    seen (flat ⟨0xFFFF, 0xFD, 0x00, 0x00, 0x00, 0x24⟩ [(0x0000, 0x77)] [0xA9]) =
      some (⟨0x0001, 0xFD, 0x77, 0x00, 0x00, 0x24⟩, some 2, []) := by decide

/-- L2 of spec/95: source §8: Z=0 N=1. -/
theorem test_ldaImm_L2 :
    seen (flat ⟨0x0200, 0xFD, 0x00, 0x00, 0x00, 0x24⟩ [] [0xA9, 0x80]) =
      some (⟨0x0202, 0xFD, 0x80, 0x00, 0x00, 0xA4⟩, some 2, []) := by decide

/-- L3 of spec/95: LDX #: N=1. -/
theorem test_ldxImm_L3 :
    seen (flat ⟨0x0200, 0xFD, 0x00, 0x00, 0x00, 0x24⟩ [] [0xA2, 0xFF]) =
      some (⟨0x0202, 0xFD, 0x00, 0xFF, 0x00, 0xA4⟩, some 2, []) := by decide

/-- L4 of spec/95: LDY #: clears N and Z, C and V untouched. -/
theorem test_ldyImm_L4 :
    seen (flat ⟨0x0200, 0xFD, 0x00, 0x00, 0x00, 0xE7⟩ [] [0xA0, 0x01]) =
      some (⟨0x0202, 0xFD, 0x00, 0x00, 0x01, 0x65⟩, some 2, []) := by decide

/-- L5 of spec/95: STA zp: no flags change (Z stays 1). -/
theorem test_staZp_L5 :
    seen (flat ⟨0x0200, 0xFD, 0x5A, 0x00, 0x00, 0x26⟩ [] [0x85, 0x10]) =
      some (⟨0x0202, 0xFD, 0x5A, 0x00, 0x00, 0x26⟩, some 3, [(0x0010, 0x5A)]) := by decide

/-- L6 of spec/95: STA abs,Y: 5 cycles, no read. -/
theorem test_staAbsy_L6 :
    seen (flat ⟨0x0200, 0xFD, 0xC3, 0x00, 0x05, 0x24⟩ [] [0x99, 0x00, 0x30]) =
      some (⟨0x0203, 0xFD, 0xC3, 0x00, 0x05, 0x24⟩, some 5, [(0x3005, 0xC3)]) := by decide

/-- L7 of spec/95: STA (zp,X). -/
theorem test_staIndx_L7 :
    seen (flat ⟨0x0200, 0xFD, 0x01, 0x02, 0x00, 0x24⟩ [(0x0022, 0x00), (0x0023, 0x04)] [0x81, 0x20]) =
      some (⟨0x0202, 0xFD, 0x01, 0x02, 0x00, 0x24⟩, some 6, [(0x0400, 0x01)]) := by decide

/-- L8 of spec/95: STA (zp),Y: 04FF+1 = 0500. -/
theorem test_staIndy_L8 :
    seen (flat ⟨0x0200, 0xFD, 0x99, 0x00, 0x01, 0x24⟩ [(0x0030, 0xFF), (0x0031, 0x04)] [0x91, 0x30]) =
      some (⟨0x0202, 0xFD, 0x99, 0x00, 0x01, 0x24⟩, some 6, [(0x0500, 0x99)]) := by decide

/-- L9 of spec/95: STX zp,Y wraps to 01. -/
theorem test_stxZpy_L9 :
    seen (flat ⟨0x0200, 0xFD, 0x00, 0xAB, 0x02, 0x24⟩ [] [0x96, 0xFF]) =
      some (⟨0x0202, 0xFD, 0x00, 0xAB, 0x02, 0x24⟩, some 4, [(0x0001, 0xAB)]) := by decide

/-- L10 of spec/95: STY abs onto its own opcode byte at 0200. -/
theorem test_styAbs_L10 :
    seen (flat ⟨0x0200, 0xFD, 0x00, 0x00, 0x3C, 0x24⟩ [] [0x8C, 0x00, 0x02]) =
      some (⟨0x0203, 0xFD, 0x00, 0x00, 0x3C, 0x24⟩, some 4, [(0x0200, 0x3C)]) := by decide

/-- L11 of spec/95: TAX: Z=1. -/
theorem test_tax_L11 :
    seen (flat ⟨0x0200, 0xFD, 0x00, 0x12, 0x00, 0x24⟩ [] [0xAA]) =
      some (⟨0x0201, 0xFD, 0x00, 0x00, 0x00, 0x26⟩, some 2, []) := by decide

/-- L12 of spec/95: TAY: N=1. -/
theorem test_tay_L12 :
    seen (flat ⟨0x0200, 0xFD, 0x80, 0x00, 0x00, 0x24⟩ [] [0xA8]) =
      some (⟨0x0201, 0xFD, 0x80, 0x00, 0x80, 0xA4⟩, some 2, []) := by decide

/-- L13 of spec/95: TXA: clears N. -/
theorem test_txa_L13 :
    seen (flat ⟨0x0200, 0xFD, 0x80, 0x7F, 0x00, 0xA4⟩ [] [0x8A]) =
      some (⟨0x0201, 0xFD, 0x7F, 0x7F, 0x00, 0x24⟩, some 2, []) := by decide

/-- L14 of spec/95: TYA: Z=1. -/
theorem test_tya_L14 :
    seen (flat ⟨0x0200, 0xFD, 0x01, 0x00, 0x00, 0x24⟩ [] [0x98]) =
      some (⟨0x0201, 0xFD, 0x00, 0x00, 0x00, 0x26⟩, some 2, []) := by decide

/-- L15 of spec/95: TSX: sp=FD gives x=FD, N=1. -/
theorem test_tsx_L15 :
    seen (flat ⟨0x0200, 0xFD, 0x00, 0x00, 0x00, 0x24⟩ [] [0xBA]) =
      some (⟨0x0201, 0xFD, 0x00, 0xFD, 0x00, 0xA4⟩, some 2, []) := by decide

/-- L16 of spec/95: TXS: sp=00, flags unchanged (Z stays 0, N stays 1). -/
theorem test_txs_L16 :
    seen (flat ⟨0x0200, 0xFD, 0x00, 0x00, 0x00, 0xA4⟩ [] [0x9A]) =
      some (⟨0x0201, 0x00, 0x00, 0x00, 0x00, 0xA4⟩, some 2, []) := by decide

/-- S1 of spec/95: PHA: write 01FD, sp FC. -/
theorem test_pha_S1 :
    seen (flat ⟨0x0200, 0xFD, 0x77, 0x00, 0x00, 0x24⟩ [] [0x48]) =
      some (⟨0x0201, 0xFC, 0x77, 0x00, 0x00, 0x24⟩, some 3, [(0x01FD, 0x77)]) := by decide

/-- S2 of spec/95: PHA at sp=00: write 0100, sp wraps to FF. -/
theorem test_pha_S2 :
    seen (flat ⟨0x0200, 0x00, 0x77, 0x00, 0x00, 0x24⟩ [] [0x48]) =
      some (⟨0x0201, 0xFF, 0x77, 0x00, 0x00, 0x24⟩, some 3, [(0x0100, 0x77)]) := by decide

/-- S3 of spec/95: PHP: pushes 34 (B and bit 5 set); live p unchanged. -/
theorem test_php_S3 :
    seen (flat ⟨0x0200, 0xFD, 0x00, 0x00, 0x00, 0x24⟩ [] [0x08]) =
      some (⟨0x0201, 0xFC, 0x00, 0x00, 0x00, 0x24⟩, some 3, [(0x01FD, 0x34)]) := by decide

/-- S4 of spec/95: PHP: pushes F3. -/
theorem test_php_S4 :
    seen (flat ⟨0x0200, 0xFD, 0x00, 0x00, 0x00, 0xE3⟩ [] [0x08]) =
      some (⟨0x0201, 0xFC, 0x00, 0x00, 0x00, 0xE3⟩, some 3, [(0x01FD, 0xF3)]) := by decide

/-- S5 of spec/95: PLA: Z=1. -/
theorem test_pla_S5 :
    seen (flat ⟨0x0200, 0xFC, 0x55, 0x00, 0x00, 0x24⟩ [(0x01FD, 0x00)] [0x68]) =
      some (⟨0x0201, 0xFD, 0x00, 0x00, 0x00, 0x26⟩, some 4, []) := by decide

/-- S6 of spec/95: PLA at sp=FF: sp wraps to 00, reads 0100, N=1. -/
theorem test_pla_S6 :
    seen (flat ⟨0x0200, 0xFF, 0x00, 0x00, 0x00, 0x24⟩ [(0x0100, 0x80)] [0x68]) =
      some (⟨0x0201, 0x00, 0x80, 0x00, 0x00, 0xA4⟩, some 4, []) := by decide

/-- S8 of spec/95: PLP: 00 -> 20. -/
theorem test_plp_S8 :
    seen (flat ⟨0x0200, 0xFC, 0x00, 0x00, 0x00, 0x24⟩ [(0x01FD, 0x00)] [0x28]) =
      some (⟨0x0201, 0xFD, 0x00, 0x00, 0x00, 0x20⟩, some 4, []) := by decide

/-- S9 of spec/95: PLP: FF -> EF. -/
theorem test_plp_S9 :
    seen (flat ⟨0x0200, 0xFC, 0x00, 0x00, 0x00, 0x20⟩ [(0x01FD, 0xFF)] [0x28]) =
      some (⟨0x0201, 0xFD, 0x00, 0x00, 0x00, 0xEF⟩, some 4, []) := by decide

/-- A1 of spec/95: AND: Z=1. -/
theorem test_andImm_A1 :
    seen (flat ⟨0x0200, 0xFD, 0xF0, 0x00, 0x00, 0x24⟩ [] [0x29, 0x0F]) =
      some (⟨0x0202, 0xFD, 0x00, 0x00, 0x00, 0x26⟩, some 2, []) := by decide

/-- A2 of spec/95: ORA: N=1. -/
theorem test_oraImm_A2 :
    seen (flat ⟨0x0200, 0xFD, 0x00, 0x00, 0x00, 0x24⟩ [] [0x09, 0x80]) =
      some (⟨0x0202, 0xFD, 0x80, 0x00, 0x00, 0xA4⟩, some 2, []) := by decide

/-- A3 of spec/95: EOR: Z=1. -/
theorem test_eorImm_A3 :
    seen (flat ⟨0x0200, 0xFD, 0xFF, 0x00, 0x00, 0x24⟩ [] [0x49, 0xFF]) =
      some (⟨0x0202, 0xFD, 0x00, 0x00, 0x00, 0x26⟩, some 2, []) := by decide

/-- A4 of spec/95: BIT zp: Z=1 (01&C0=0), N=1, V=1, a unchanged. -/
theorem test_bitZp_A4 :
    seen (flat ⟨0x0200, 0xFD, 0x01, 0x00, 0x00, 0x24⟩ [(0x0010, 0xC0)] [0x24, 0x10]) =
      some (⟨0x0202, 0xFD, 0x01, 0x00, 0x00, 0xE6⟩, some 3, []) := by decide

/-- A5 of spec/95: BIT abs: clears N and V, Z=0. -/
theorem test_bitAbs_A5 :
    seen (flat ⟨0x0200, 0xFD, 0xFF, 0x00, 0x00, 0xE4⟩ [(0x1000, 0x3F)] [0x2C, 0x00, 0x10]) =
      some (⟨0x0203, 0xFD, 0xFF, 0x00, 0x00, 0x24⟩, some 4, []) := by decide

/-- A9 of spec/95: ADC #: C=1 V=1 Z=1. -/
theorem test_adcImm_A9 :
    seen (flat ⟨0x0200, 0xFD, 0x80, 0x00, 0x00, 0x24⟩ [] [0x69, 0x80]) =
      some (⟨0x0202, 0xFD, 0x00, 0x00, 0x00, 0x67⟩, some 2, []) := by decide

/-- A13 of spec/95: ADC with D=1 is binary: 0A, not 10. -/
theorem test_adcImm_A13 :
    seen (flat ⟨0x0200, 0xFD, 0x09, 0x00, 0x00, 0x2C⟩ [] [0x69, 0x01]) =
      some (⟨0x0202, 0xFD, 0x0A, 0x00, 0x00, 0x2C⟩, some 2, []) := by decide

/-- A17 of spec/95: SBC #: V=1: -128-1. -/
theorem test_sbcImm_A17 :
    seen (flat ⟨0x0200, 0xFD, 0x80, 0x00, 0x00, 0x25⟩ [] [0xE9, 0x01]) =
      some (⟨0x0202, 0xFD, 0x7F, 0x00, 0x00, 0x65⟩, some 2, []) := by decide

/-- A19 of spec/95: SBC #: C=0 borrows one more. -/
theorem test_sbcImm_A19 :
    seen (flat ⟨0x0200, 0xFD, 0x05, 0x00, 0x00, 0x24⟩ [] [0xE9, 0x05]) =
      some (⟨0x0202, 0xFD, 0xFF, 0x00, 0x00, 0xA4⟩, some 2, []) := by decide

/-- A24 of spec/95: CMP unsigned: 00 < 80, result 80 N=1. -/
theorem test_cmpImm_A24 :
    seen (flat ⟨0x0200, 0xFD, 0x00, 0x00, 0x00, 0x24⟩ [] [0xC9, 0x80]) =
      some (⟨0x0202, 0xFD, 0x00, 0x00, 0x00, 0xA4⟩, some 2, []) := by decide

/-- A25 of spec/95: CMP: 80 >= 00, C=1 N=1. -/
theorem test_cmpImm_A25 :
    seen (flat ⟨0x0200, 0xFD, 0x80, 0x00, 0x00, 0x24⟩ [] [0xC9, 0x00]) =
      some (⟨0x0202, 0xFD, 0x80, 0x00, 0x00, 0xA5⟩, some 2, []) := by decide

/-- A26 of spec/95: CPX #: Z=1 C=1. -/
theorem test_cpxImm_A26 :
    seen (flat ⟨0x0200, 0xFD, 0x00, 0x10, 0x00, 0x24⟩ [] [0xE0, 0x10]) =
      some (⟨0x0202, 0xFD, 0x00, 0x10, 0x00, 0x27⟩, some 2, []) := by decide

/-- A27 of spec/95: CPY zp: C=0 N=1. -/
theorem test_cpyZp_A27 :
    seen (flat ⟨0x0200, 0xFD, 0x00, 0x00, 0x00, 0x24⟩ [(0x0020, 0x01)] [0xC4, 0x20]) =
      some (⟨0x0202, 0xFD, 0x00, 0x00, 0x00, 0xA4⟩, some 3, []) := by decide

/-- I1 of spec/95: INC FF -> 00: Z=1, C stays 1 (not set by INC). -/
theorem test_incZp_I1 :
    seen (flat ⟨0x0200, 0xFD, 0x00, 0x00, 0x00, 0x25⟩ [(0x0010, 0xFF)] [0xE6, 0x10]) =
      some (⟨0x0202, 0xFD, 0x00, 0x00, 0x00, 0x27⟩, some 5, [(0x0010, 0x00)]) := by decide

/-- I2 of spec/95: INC 7F -> 80: N=1. -/
theorem test_incZp_I2 :
    seen (flat ⟨0x0200, 0xFD, 0x00, 0x00, 0x00, 0x24⟩ [(0x0010, 0x7F)] [0xE6, 0x10]) =
      some (⟨0x0202, 0xFD, 0x00, 0x00, 0x00, 0xA4⟩, some 5, [(0x0010, 0x80)]) := by decide

/-- I3 of spec/95: DEC 00 -> FF: N=1. -/
theorem test_decZp_I3 :
    seen (flat ⟨0x0200, 0xFD, 0x00, 0x00, 0x00, 0x24⟩ [(0x0010, 0x00)] [0xC6, 0x10]) =
      some (⟨0x0202, 0xFD, 0x00, 0x00, 0x00, 0xA4⟩, some 5, [(0x0010, 0xFF)]) := by decide

/-- I4 of spec/95: DEC abs,X 01 -> 00: Z=1, 7 cycles. -/
theorem test_decAbsx_I4 :
    seen (flat ⟨0x0200, 0xFD, 0x00, 0x05, 0x00, 0x24⟩ [(0x1005, 0x01)] [0xDE, 0x00, 0x10]) =
      some (⟨0x0203, 0xFD, 0x00, 0x05, 0x00, 0x26⟩, some 7, [(0x1005, 0x00)]) := by decide

/-- I5 of spec/95: INX wraps: Z=1. -/
theorem test_inx_I5 :
    seen (flat ⟨0x0200, 0xFD, 0x00, 0xFF, 0x00, 0x24⟩ [] [0xE8]) =
      some (⟨0x0201, 0xFD, 0x00, 0x00, 0x00, 0x26⟩, some 2, []) := by decide

/-- I6 of spec/95: INY: N=1. -/
theorem test_iny_I6 :
    seen (flat ⟨0x0200, 0xFD, 0x00, 0x00, 0x7F, 0x24⟩ [] [0xC8]) =
      some (⟨0x0201, 0xFD, 0x00, 0x00, 0x80, 0xA4⟩, some 2, []) := by decide

/-- I7 of spec/95: DEX wraps: N=1. -/
theorem test_dex_I7 :
    seen (flat ⟨0x0200, 0xFD, 0x00, 0x00, 0x00, 0x24⟩ [] [0xCA]) =
      some (⟨0x0201, 0xFD, 0x00, 0xFF, 0x00, 0xA4⟩, some 2, []) := by decide

/-- I8 of spec/95: DEY: Z=1. -/
theorem test_dey_I8 :
    seen (flat ⟨0x0200, 0xFD, 0x00, 0x00, 0x01, 0x24⟩ [] [0x88]) =
      some (⟨0x0201, 0xFD, 0x00, 0x00, 0x00, 0x26⟩, some 2, []) := by decide

/-- I9 of spec/95: ASL A: C=1 Z=1. -/
theorem test_aslAcc_I9 :
    seen (flat ⟨0x0200, 0xFD, 0x80, 0x00, 0x00, 0x24⟩ [] [0x0A]) =
      some (⟨0x0201, 0xFD, 0x00, 0x00, 0x00, 0x27⟩, some 2, []) := by decide

/-- I10 of spec/95: ASL zp: AA, N=1 C=0. -/
theorem test_aslZp_I10 :
    seen (flat ⟨0x0200, 0xFD, 0x00, 0x00, 0x00, 0x24⟩ [(0x0010, 0x55)] [0x06, 0x10]) =
      some (⟨0x0202, 0xFD, 0x00, 0x00, 0x00, 0xA4⟩, some 5, [(0x0010, 0xAA)]) := by decide

/-- I11 of spec/95: LSR A: C=1 Z=1. -/
theorem test_lsrAcc_I11 :
    seen (flat ⟨0x0200, 0xFD, 0x01, 0x00, 0x00, 0x24⟩ [] [0x4A]) =
      some (⟨0x0201, 0xFD, 0x00, 0x00, 0x00, 0x27⟩, some 2, []) := by decide

/-- I12 of spec/95: LSR abs: 7F, C=1, N cleared. -/
theorem test_lsrAbs_I12 :
    seen (flat ⟨0x0200, 0xFD, 0x00, 0x00, 0x00, 0xA4⟩ [(0x2000, 0xFF)] [0x4E, 0x00, 0x20]) =
      some (⟨0x0203, 0xFD, 0x00, 0x00, 0x00, 0x25⟩, some 6, [(0x2000, 0x7F)]) := by decide

/-- I13 of spec/95: ROL A with C=1: 01, C=1. -/
theorem test_rolAcc_I13 :
    seen (flat ⟨0x0200, 0xFD, 0x80, 0x00, 0x00, 0x25⟩ [] [0x2A]) =
      some (⟨0x0201, 0xFD, 0x01, 0x00, 0x00, 0x25⟩, some 2, []) := by decide

/-- I14 of spec/95: ROL A with C=0: 00, C=1 Z=1. -/
theorem test_rolAcc_I14 :
    seen (flat ⟨0x0200, 0xFD, 0x80, 0x00, 0x00, 0x24⟩ [] [0x2A]) =
      some (⟨0x0201, 0xFD, 0x00, 0x00, 0x00, 0x27⟩, some 2, []) := by decide

/-- I15 of spec/95: ROR A with C=1: 80, C=1 N=1. -/
theorem test_rorAcc_I15 :
    seen (flat ⟨0x0200, 0xFD, 0x01, 0x00, 0x00, 0x25⟩ [] [0x6A]) =
      some (⟨0x0201, 0xFD, 0x80, 0x00, 0x00, 0xA5⟩, some 2, []) := by decide

/-- I16 of spec/95: ROR zp,X with C=1: 81, C=0 N=1. -/
theorem test_rorZpx_I16 :
    seen (flat ⟨0x0200, 0xFD, 0x00, 0x01, 0x00, 0x25⟩ [(0x0011, 0x02)] [0x76, 0x10]) =
      some (⟨0x0202, 0xFD, 0x00, 0x01, 0x00, 0xA4⟩, some 6, [(0x0011, 0x81)]) := by decide

/-- C1 of spec/95: JMP abs. -/
theorem test_jmpAbs_C1 :
    seen (flat ⟨0x0200, 0xFD, 0x00, 0x00, 0x00, 0x24⟩ [] [0x4C, 0x34, 0x12]) =
      some (⟨0x1234, 0xFD, 0x00, 0x00, 0x00, 0x24⟩, some 3, []) := by decide

/-- C2 of spec/95: JMP (ind) ordinary. -/
theorem test_jmpInd_C2 :
    seen (flat ⟨0x0200, 0xFD, 0x00, 0x00, 0x00, 0x24⟩ [(0x1020, 0x00), (0x1021, 0x90)] [0x6C, 0x20, 0x10]) =
      some (⟨0x9000, 0xFD, 0x00, 0x00, 0x00, 0x24⟩, some 5, []) := by decide

/-- C3 of spec/95: JMP (ind) quirk, source §8: 1234 not 5634. -/
theorem test_jmpInd_C3 :
    seen (flat ⟨0x0200, 0xFD, 0x00, 0x00, 0x00, 0x24⟩ [(0x10FF, 0x34), (0x1000, 0x12), (0x1100, 0x56)] [0x6C, 0xFF, 0x10]) =
      some (⟨0x1234, 0xFD, 0x00, 0x00, 0x00, 0x24⟩, some 5, []) := by decide

/-- C4 of spec/95: JSR: pushes 03 then 02 (JSR+2). -/
theorem test_jsr_C4 :
    seen (flat ⟨0x0300, 0xFD, 0x00, 0x00, 0x00, 0x24⟩ [] [0x20, 0x00, 0x90]) =
      some (⟨0x9000, 0xFB, 0x00, 0x00, 0x00, 0x24⟩, some 6, [(0x01FD, 0x03), (0x01FC, 0x02)]) := by decide

/-- C5 of spec/95: JSR at sp=00: writes 0100 then 01FF. -/
theorem test_jsr_C5 :
    seen (flat ⟨0x0300, 0x00, 0x00, 0x00, 0x00, 0x24⟩ [] [0x20, 0x00, 0x90]) =
      some (⟨0x9000, 0xFE, 0x00, 0x00, 0x00, 0x24⟩, some 6, [(0x0100, 0x03), (0x01FF, 0x02)]) := by decide

/-- C6 of spec/95: RTS: 0302+1 = 0303. -/
theorem test_rts_C6 :
    seen (flat ⟨0x0200, 0xFB, 0x00, 0x00, 0x00, 0x24⟩ [(0x01FC, 0x02), (0x01FD, 0x03)] [0x60]) =
      some (⟨0x0303, 0xFD, 0x00, 0x00, 0x00, 0x24⟩, some 6, []) := by decide

/-- C7 of spec/95: RTS: FFFF+1 wraps to 0000. -/
theorem test_rts_C7 :
    seen (flat ⟨0x0200, 0xFB, 0x00, 0x00, 0x00, 0x24⟩ [(0x01FC, 0xFF), (0x01FD, 0xFF)] [0x60]) =
      some (⟨0x0000, 0xFD, 0x00, 0x00, 0x00, 0x24⟩, some 6, []) := by decide

/-- C8 of spec/95: BPL taken: 0202+10 = 0212, 3 cycles. -/
theorem test_bpl_C8 :
    seen (flat ⟨0x0200, 0xFD, 0x00, 0x00, 0x00, 0x24⟩ [] [0x10, 0x10]) =
      some (⟨0x0212, 0xFD, 0x00, 0x00, 0x00, 0x24⟩, some 3, []) := by decide

/-- C9 of spec/95: BPL not taken, 2 cycles. -/
theorem test_bpl_C9 :
    seen (flat ⟨0x0200, 0xFD, 0x00, 0x00, 0x00, 0xA4⟩ [] [0x10, 0x10]) =
      some (⟨0x0202, 0xFD, 0x00, 0x00, 0x00, 0xA4⟩, some 2, []) := by decide

/-- C10 of spec/95: BMI taken backward: 0202-4 = 01FE. -/
theorem test_bmi_C10 :
    seen (flat ⟨0x0200, 0xFD, 0x00, 0x00, 0x00, 0xA4⟩ [] [0x30, 0xFC]) =
      some (⟨0x01FE, 0xFD, 0x00, 0x00, 0x00, 0xA4⟩, some 3, []) := by decide

/-- C11 of spec/95: BVC taken, dd=80: 8102-128 = 8082. -/
theorem test_bvc_C11 :
    seen (flat ⟨0x8100, 0xFD, 0x00, 0x00, 0x00, 0x24⟩ [] [0x50, 0x80]) =
      some (⟨0x8082, 0xFD, 0x00, 0x00, 0x00, 0x24⟩, some 3, []) := by decide

/-- C12 of spec/95: BVS taken, dd=7F: 0281. -/
theorem test_bvs_C12 :
    seen (flat ⟨0x0200, 0xFD, 0x00, 0x00, 0x00, 0x64⟩ [] [0x70, 0x7F]) =
      some (⟨0x0281, 0xFD, 0x00, 0x00, 0x00, 0x64⟩, some 3, []) := by decide

/-- C13 of spec/95: BCC not taken (C=1). -/
theorem test_bcc_C13 :
    seen (flat ⟨0x0200, 0xFD, 0x00, 0x00, 0x00, 0x25⟩ [] [0x90, 0x10]) =
      some (⟨0x0202, 0xFD, 0x00, 0x00, 0x00, 0x25⟩, some 2, []) := by decide

/-- C14 of spec/95: BCS taken, dd=FE: branch to itself. -/
theorem test_bcs_C14 :
    seen (flat ⟨0x0200, 0xFD, 0x00, 0x00, 0x00, 0x25⟩ [] [0xB0, 0xFE]) =
      some (⟨0x0200, 0xFD, 0x00, 0x00, 0x00, 0x25⟩, some 3, []) := by decide

/-- C15 of spec/95: BNE taken, dd=00: next instruction, still 3 cycles. -/
theorem test_bne_C15 :
    seen (flat ⟨0x0200, 0xFD, 0x00, 0x00, 0x00, 0x24⟩ [] [0xD0, 0x00]) =
      some (⟨0x0202, 0xFD, 0x00, 0x00, 0x00, 0x24⟩, some 3, []) := by decide

/-- C16 of spec/95: BEQ taken, wraps: FFF2+20 = 0012. -/
theorem test_beq_C16 :
    seen (flat ⟨0xFFF0, 0xFD, 0x00, 0x00, 0x00, 0x26⟩ [] [0xF0, 0x20]) =
      some (⟨0x0012, 0xFD, 0x00, 0x00, 0x00, 0x26⟩, some 3, []) := by decide

/-- C17 of spec/95: BEQ taken across a page: 3 cycles, no penalty. -/
theorem test_beq_C17 :
    seen (flat ⟨0x02F0, 0xFD, 0x00, 0x00, 0x00, 0x26⟩ [] [0xF0, 0x20]) =
      some (⟨0x0312, 0xFD, 0x00, 0x00, 0x00, 0x26⟩, some 3, []) := by decide

/-- F1 of spec/95: CLC. -/
theorem test_clc_F1 :
    seen (flat ⟨0x0200, 0xFD, 0x00, 0x00, 0x00, 0x25⟩ [] [0x18]) =
      some (⟨0x0201, 0xFD, 0x00, 0x00, 0x00, 0x24⟩, some 2, []) := by decide

/-- F2 of spec/95: CLD. -/
theorem test_cld_F2 :
    seen (flat ⟨0x0200, 0xFD, 0x00, 0x00, 0x00, 0x2C⟩ [] [0xD8]) =
      some (⟨0x0201, 0xFD, 0x00, 0x00, 0x00, 0x24⟩, some 2, []) := by decide

/-- F3 of spec/95: CLI. -/
theorem test_cli_F3 :
    seen (flat ⟨0x0200, 0xFD, 0x00, 0x00, 0x00, 0x34⟩ [] [0x58]) =
      some (⟨0x0201, 0xFD, 0x00, 0x00, 0x00, 0x30⟩, some 2, []) := by decide

/-- F4 of spec/95: CLV. -/
theorem test_clv_F4 :
    seen (flat ⟨0x0200, 0xFD, 0x00, 0x00, 0x00, 0x64⟩ [] [0xB8]) =
      some (⟨0x0201, 0xFD, 0x00, 0x00, 0x00, 0x24⟩, some 2, []) := by decide

/-- F5 of spec/95: SEC. -/
theorem test_sec_F5 :
    seen (flat ⟨0x0200, 0xFD, 0x00, 0x00, 0x00, 0x24⟩ [] [0x38]) =
      some (⟨0x0201, 0xFD, 0x00, 0x00, 0x00, 0x25⟩, some 2, []) := by decide

/-- F6 of spec/95: SED. -/
theorem test_sed_F6 :
    seen (flat ⟨0x0200, 0xFD, 0x00, 0x00, 0x00, 0x24⟩ [] [0xF8]) =
      some (⟨0x0201, 0xFD, 0x00, 0x00, 0x00, 0x2C⟩, some 2, []) := by decide

/-- F7 of spec/95: SEI. -/
theorem test_sei_F7 :
    seen (flat ⟨0x0200, 0xFD, 0x00, 0x00, 0x00, 0x20⟩ [] [0x78]) =
      some (⟨0x0201, 0xFD, 0x00, 0x00, 0x00, 0x24⟩, some 2, []) := by decide

/-- F8 of spec/95: BRK: rule R167 example. -/
theorem test_brk_F8 :
    seen (flat ⟨0x8000, 0xFD, 0x00, 0x00, 0x00, 0x25⟩ [(0xFFFE, 0x00), (0xFFFF, 0x90)] [0x00, 0xEA]) =
      some (⟨0x9000, 0xFA, 0x00, 0x00, 0x00, 0x25⟩, some 7, [(0x01FD, 0x80), (0x01FC, 0x02), (0x01FB, 0x35)]) := by decide

/-- F9 of spec/95: BRK with live B=1 at sp=01: stack wraps, B becomes 0. -/
theorem test_brk_F9 :
    seen (flat ⟨0x0200, 0x01, 0x00, 0x00, 0x00, 0x34⟩ [(0xFFFE, 0x00), (0xFFFF, 0x90)] [0x00]) =
      some (⟨0x9000, 0xFE, 0x00, 0x00, 0x00, 0x24⟩, some 7, [(0x0101, 0x02), (0x0100, 0x02), (0x01FF, 0x34)]) := by decide

/-- F10 of spec/95: RTI: status 25, pc 8002. -/
theorem test_rti_F10 :
    seen (flat ⟨0x0200, 0xFA, 0x00, 0x00, 0x00, 0x21⟩ [(0x01FB, 0x35), (0x01FC, 0x02), (0x01FD, 0x80)] [0x40]) =
      some (⟨0x8002, 0xFD, 0x00, 0x00, 0x00, 0x25⟩, some 6, []) := by decide

/-- F11 of spec/95: RTI pulls FF: status EF; pc 0000. -/
theorem test_rti_F11 :
    seen (flat ⟨0x0200, 0xFC, 0x00, 0x00, 0x00, 0x24⟩ [(0x01FD, 0xFF), (0x01FE, 0x00), (0x01FF, 0x00)] [0x40]) =
      some (⟨0x0000, 0xFF, 0x00, 0x00, 0x00, 0xEF⟩, some 6, []) := by decide

/-! The bus, the reset and the launch: B1 to B6 and R-1 to R-5 of spec/95. -/

/-- A machine on the NROM bus with the registers, a PRG image, and code in RAM at `pc`. -/
def nrom (banks : PrgBanks) (c : CPUState) (prg : Memory) (code : List Byte) : State :=
  State.seedBytes
    { pc := c.pc, sp := c.sp, a := c.a, x := c.x, y := c.y, status := c.status, bus := .mapped (.nrom banks), ram := [],
      prg := prg, events := [], cycles := none, accesses := [] }
    c.pc code

/-- The registers of most vectors. -/
def regs0 : CPUState := ⟨0x0200, 0xFD, 0x00, 0x00, 0x00, 0x24⟩

/-- B1: one bank is mirrored. -/
theorem test_nrom_one_bank_mirrors :
    let s := nrom .one regs0 [(0x0000, 0x11), (0x3FFF, 0x22)] []
    (s.peek 0x8000, s.peek 0xC000, s.peek 0xBFFF, s.peek 0xFFFF) = (0x11, 0x11, 0x22, 0x22) := by decide

/-- B2: two banks are not. -/
theorem test_nrom_two_banks_do_not_mirror :
    let s := nrom .two regs0 [(0x0000, 0x03), (0x4000, 0x05), (0x7FFF, 0xFC)] []
    (s.peek 0x8000, s.peek 0xC000, s.peek 0xFFFF) = (0x03, 0x05, 0xFC) := by decide

/-- The events of one tick, its registers and its count. -/
def seenEvents (s : State) : Option (List Event × CPUState × Option Byte) :=
  match step s with
  | .next t => some (t.events, t.snapshot, t.cycles)
  | .fault _ => none
  | .refused _ => none

/-- B3: STA $8000 emits one event. -/
theorem test_prg_write_is_an_event :
    seenEvents (nrom .one ⟨0x0200, 0xFD, 0x5A, 0x00, 0x00, 0x24⟩ [(0x0000, 0x11)] [0x8D, 0x00, 0x80]) =
      some ([.illegalPrgWrite 0x0000 0x5A], ⟨0x0203, 0xFD, 0x5A, 0x00, 0x00, 0x24⟩, some 4) := by decide

/-- B4: INC $C000 reads through the mirror, and its flags are those of the discarded byte. -/
theorem test_prg_increment_is_an_event :
    seenEvents (nrom .one regs0 [(0x0000, 0xFF)] [0xEE, 0x00, 0xC0]) =
      some ([.illegalPrgWrite 0x4000 0x00], ⟨0x0203, 0xFD, 0x00, 0x00, 0x00, 0x26⟩, some 6) := by decide

/-- B5 and B6: RAM is not mirrored, and 0x7FFF is its last byte. -/
theorem test_ram_is_not_mirrored :
    let s := (nrom .one regs0 [] [])
    ((s.seed 0x0000 0x33).memWrite 0x0800 0x99).peek 0x0000 = 0x33 ∧
    (s.memWrite 0x7FFF 0x42).peek 0x7FFF = 0x42 ∧ (s.memWrite 0x7FFF 0x42).events = [] ∧
    (s.memWrite 0x8000 0x42).peek 0x8000 = 0x00 := by decide

/-- R-1 and R-3: reset, from any registers, reads 0xFFFC then 0xFFFD and leaves RAM alone. -/
theorem test_reset_reads_the_vector :
    let s := nrom .one ⟨0x1234, 0x00, 0x01, 0x02, 0x03, 0xFF⟩ [(0x3FFD, 0x80)] [0x77]
    s.resetToPowerUp.snapshot = ⟨0x8000, 0xFD, 0x00, 0x00, 0x00, 0x34⟩ ∧
    s.resetToPowerUp.accesses = [.read 0xFFFC 0x00, .read 0xFFFD 0x80] ∧
    s.resetToPowerUp.ram = s.ram ∧ s.resetToPowerUp.events = [] := by decide

/-- R-2: the vector of a two-bank cartridge. -/
theorem test_reset_reads_the_second_bank :
    (State.powerUp (.mapped (.nrom .two)) [(0x7FFC, 0x34), (0x7FFD, 0xC2)] []).pc = 0xC234 := by decide

/-- R-4: a `CPUState` with status bit 5 clear is refused. -/
theorem test_load_refuses_bit_5_clear :
    State.reset.loadCPU ⟨0x0200, 0xFD, 0x00, 0x00, 0x00, 0x00⟩ = .error .statusBit5Clear := rfl

/-- R-5: mapper id 1 has no bus. -/
theorem test_boot_refuses_mapper_1 : State.boot 1 [] [] = .error (.unsupportedMapper 1) := rfl

/-- `State.reset` is what power-up makes of the launch of log entry 5 (R34, R186). -/
theorem test_reset_is_reset_to_power_up : State.reset = State.powerUp (.mapped (.nrom .one)) [] [] := by decide

/-- R33's rendering of the state after reset with the vector 0x8000. -/
theorem test_render :
    (⟨0x8000, 0xFD, 0x00, 0x00, 0x00, 0x34⟩ : CPUState).render = "PC: 8000 S: FD A: 00 X: 00 Y: 00 P: 34" := by decide

/-! Well-formedness and decoding, from words written out bit by bit. -/

/-- Well-formedness refuses `unassigned` with a byte that R65 assigns, and passes it with one that R66 lists. -/
theorem test_well_formed :
    (Instr.unassigned 0xEA).wellFormed = false ∧ (Instr.unassigned 0x00).wellFormed = false ∧
    (Instr.unassigned 0x02).wellFormed = true ∧ (Instr.unassigned 0xFF).wellFormed = true ∧
    (Instr.ldaImm 0x00).wellFormed = true := by decide

/-- Loads and stores, transfers, stack: LDA #$80 is A9 80, STA ($12),Y is 91 12, TXS is 9A, PHP is 08. -/
theorem test_decode_moves :
    decode [0b10101001, 0b10000000] = .ok (.ldaImm 0x80, []) ∧
    decode [0b10010001, 0b00010010] = .ok (.staIndy 0x12, []) ∧
    decode [0b10011010] = .ok (.txs, []) ∧
    decode [0b00001000] = .ok (.php, []) := by decide

/-- ALU, increments and shifts: SBC $1234,Y is F9 34 12, INC $05,X is F6 05, ROR A is 6A. -/
theorem test_decode_alu :
    decode [0b11111001, 0b00110100, 0b00010010] = .ok (.sbcAbsy 0x1234, []) ∧
    decode [0b11110110, 0b00000101] = .ok (.incZpx 0x05, []) ∧
    decode [0b01101010] = .ok (.rorAcc, []) := by decide

/-- Control and flags: JMP ($10FF) is 6C FF 10, BNE -7 is D0 F9, SED is F8, BRK is the one byte 00. -/
theorem test_decode_control :
    decode [0b01101100, 0b11111111, 0b00010000] = .ok (.jmpInd 0x10FF, []) ∧
    decode [0b11010000, 0b11111001] = .ok (.bne 0xF9, []) ∧
    decode [0b11111000] = .ok (.sed, []) ∧
    decode [0b00000000, 0b11101010] = .ok (.brk, [0xEA]) := by decide

/-- Unassigned bytes are one byte long, and a word cut short is refused by name. -/
theorem test_decode_edges :
    decode [0b00000010, 0b10101001] = .ok (.unassigned 0x02, [0xA9]) ∧
    decode [] = .error .noOpcode ∧
    (decode [0b10101001]).isOk = false ∧ (decode [0b01001100, 0b00000000]).isOk = false := by decide

/-- A table word: its first byte is the low one, and the bytes above `nbits` are 0. -/
theorem test_decode_table_word :
    decodeTableWord 8 0xEA = some .nop ∧ decodeTableWord 16 0x80A9 = some (.ldaImm 0x80) ∧
    decodeTableWord 24 0x12344C = some (.jmpAbs 0x1234) ∧ decodeTableWord 8 0x4C = some (.jmpAbs 0x0000) := by decide

/-- The word placed by `withFetchWord` is what the next tick runs. -/
theorem test_with_fetch_word :
    seen (State.reset.withFetchWord 16 0x80A9) = some (⟨0x0002, 0xFD, 0x80, 0x00, 0x00, 0xB4⟩, some 2, []) := by decide

/-- `UNASSIGNED_POLICY = refuse` refuses by name (D6). -/
theorem test_refuse_policy : runUnassigned .refuse 0x02 State.reset = .refused (.unassignedOpcode 0x02) := rfl

/-! Witnesses: for every statement with hypotheses, a state and operands that meet them all, one for each of its clauses. -/

/-- The state `exec` answers, if it answers one. -/
def execOf (i : Instr) (s : State) : State :=
  match exec i s with
  | .next t => t
  | .fault _ => s
  | .refused _ => s

/-- The state a tick answers, if it answers one. -/
def tickOf (s : State) : State :=
  match step s with
  | .next t => t
  | .fault _ => s
  | .refused _ => s

/-- The states that follow one another by an instruction. -/
def runOf (i : Instr) (s : State) : Nat → State
  | 0 => s
  | n + 1 => execOf i (runOf i s n)

/-- STA $8000 on the NROM bus: a write that becomes an event. -/
def prgStore : State := nrom .one ⟨0x0200, 0xFD, 0x5A, 0x00, 0x00, 0x24⟩ [(0x0000, 0x11)] [0x8D, 0x00, 0x80]

/-- STA $7FFF on the NROM bus: a write that reaches RAM. -/
def ramStore : State := nrom .two ⟨0x0200, 0xFD, 0x5A, 0x00, 0x00, 0x24⟩ [] [0x8D, 0xFF, 0x7F]

/-- BRK on the flat bus, its stack slots wrapping. -/
def breaks : State := flat ⟨0x0200, 0x01, 0x11, 0x22, 0x33, 0x34⟩ [(0xFFFF, 0x90)] [0x00]

theorem test_witness_EveryTickKeepsInvariant :
    (Inv prgStore ∧ step prgStore = .next (tickOf prgStore)) ∧
    (Inv ramStore ∧ step ramStore = .next (tickOf ramStore)) ∧
    (Inv breaks ∧ step breaks = .next (tickOf breaks)) :=
  ⟨⟨by decide, rfl⟩, ⟨by decide, rfl⟩, ⟨by decide, rfl⟩⟩

theorem test_witness_DecodeOfEncodeIsTheInstruction :
    (Instr.ldaImm 0xFF).wellFormed = true ∧ (Instr.jmpInd 0xFFFF).wellFormed = true ∧ Instr.nop.wellFormed = true ∧
    (Instr.unassigned 0xFF).wellFormed = true := by decide

theorem test_witness_EncodeOfDecodeIsTheBytes :
    decode [0xEA] = .ok (.nop, []) ∧ decode [0xA9, 0xFF, 0x00] = .ok (.ldaImm 0xFF, [0x00]) ∧
    decode [0x6C, 0xFF, 0xFF] = .ok (.jmpInd 0xFFFF, []) ∧ decode [0xFF] = .ok (.unassigned 0xFF, []) := by decide

/-- LDA # at 0xFFFF, its operand at 0x0000 (E16). -/
def wrapping : State := flat ⟨0xFFFF, 0xFD, 0x00, 0x00, 0x00, 0x24⟩ [] [0xA9, 0x77, 0x00]

theorem test_witness_TickRunsTheDecodedInstruction :
    decode (wrapping.peekBytes wrapping.pc 3) = .ok (.ldaImm 0x77, [0x00]) ∧
    decode (prgStore.peekBytes prgStore.pc 3) = .ok (.staAbs 0x8000, []) ∧
    decode (breaks.peekBytes breaks.pc 3) = .ok (.brk, [0x00, 0x00]) := by decide

/-- BEQ taken, BEQ not taken, and an unassigned byte. -/
def takenBranch : State := flat ⟨0xFFF0, 0xFD, 0x00, 0x00, 0x00, 0x26⟩ [] [0xF0, 0x20]
def untakenBranch : State := flat ⟨0xFFF0, 0xFD, 0x00, 0x00, 0x00, 0x24⟩ [] [0xF0, 0x20]
def unassignedByte : State := flat ⟨0xFFFF, 0xFD, 0x00, 0x00, 0x00, 0x24⟩ [] [0xFF]
def firstUnassigned : State := flat ⟨0x0200, 0xFD, 0x00, 0x00, 0x00, 0x24⟩ [] [0x02]

theorem test_witness_TickReturnsTheCycleCount :
    (step unassignedByte = .next (tickOf unassignedByte) ∧ isUnassigned (unassignedByte.peek unassignedByte.pc) = true) ∧
    (step prgStore = .next (tickOf prgStore) ∧ isUnassigned (prgStore.peek prgStore.pc) = false) ∧
    (step takenBranch = .next (tickOf takenBranch) ∧
      (branchTest (decodeOpcode (takenBranch.peek takenBranch.pc)).1).isSome = true ∧
      branchTaken (decodeOpcode (takenBranch.peek takenBranch.pc)).1 takenBranch.status = true) ∧
    (step untakenBranch = .next (tickOf untakenBranch) ∧
      (branchTest (decodeOpcode (untakenBranch.peek untakenBranch.pc)).1).isSome = true ∧
      branchTaken (decodeOpcode (untakenBranch.peek untakenBranch.pc)).1 untakenBranch.status = false) :=
  ⟨⟨rfl, by decide⟩, ⟨rfl, by decide⟩, ⟨rfl, by decide, by decide⟩, ⟨rfl, by decide, by decide⟩⟩

theorem test_witness_TickActsOnlyThroughItsAccesses :
    step prgStore = .next (tickOf prgStore) ∧ step ramStore = .next (tickOf ramStore) ∧
    step breaks = .next (tickOf breaks) := ⟨rfl, rfl, rfl⟩

theorem test_witness_TickMakesExactlyTheListedAccesses :
    decode (breaks.peekBytes breaks.pc 3) = .ok (.brk, [0x00, 0x00]) ∧ step breaks = .next (tickOf breaks) :=
  ⟨by decide, rfl⟩

theorem test_witness_PrgIsConstant :
    step prgStore = .next (tickOf prgStore) ∧ prgStore.bus ≠ .flat ∧ Config.busSplit ≤ 0x8000#16 ∧
    Config.busSplit ≤ 0xFFFF#16 := ⟨rfl, by decide, by decide, by decide⟩

theorem test_witness_BusReadIsMultiplexed :
    prgStore.bus = .mapped (.nrom .one) ∧ ramStore.bus = .mapped (.nrom .two) ∧
    (0x7FFF#16 < 0x8000#16) ∧ (0x8000#16 ≤ 0x8000#16) ∧ (0x8000#16 ≤ 0xFFFF#16) ∧ (0xC000#16 ≤ 0xC000#16) := by decide

theorem test_witness_BusWriteIsMultiplexed :
    prgStore.bus = .mapped (.nrom .one) ∧ (0x7FFF#16 < 0x8000#16) ∧ (0x8000#16 ≤ 0x8000#16) := by decide

theorem test_witness_FlatBusIsPlainRam : breaks.bus = .flat := rfl

theorem test_witness_LoadsTakeTheOperand :
    (Instr.ldaIndy 0xFF).mnemonic = .lda ∧ (Instr.ldxZpy 0xFF).mnemonic = .ldx ∧ (Instr.ldyImm 0x00).mnemonic = .ldy := by
  decide

theorem test_witness_StoresWriteTheRegister :
    (Instr.staAbsx 0xFFFF).mnemonic = .sta ∧ (Instr.stxZpy 0xFF).mnemonic = .stx ∧ (Instr.styAbs 0x8000).mnemonic = .sty := by
  decide

theorem test_witness_TransfersCopyTheRegister :
    Instr.tax.mnemonic = .tax ∧ Instr.tay.mnemonic = .tay ∧ Instr.txa.mnemonic = .txa ∧ Instr.tya.mnemonic = .tya ∧
    Instr.tsx.mnemonic = .tsx ∧ Instr.txs.mnemonic = .txs := by decide

theorem test_witness_PushesWriteTheStackSlot : Instr.pha.mnemonic = .pha ∧ Instr.php.mnemonic = .php := by decide

theorem test_witness_PullsReadTheStackSlot : Instr.pla.mnemonic = .pla ∧ Instr.plp.mnemonic = .plp := by decide

theorem test_witness_LogicCombinesIntoA :
    (Instr.andImm 0x0F).mnemonic = .and ∧ (Instr.oraAbsy 0xFFFF).mnemonic = .ora ∧ (Instr.eorIndx 0xFF).mnemonic = .eor := by
  decide

theorem test_witness_BitTestsMemory : (Instr.bitZp 0xFF).mnemonic = .bit ∧ (Instr.bitAbs 0x8000).mnemonic = .bit := by decide

theorem test_witness_AdcFollowsItsPseudocode : (Instr.adcImm 0xFF).mnemonic = .adc ∧ (Instr.adcIndy 0xFF).mnemonic = .adc := by
  decide

theorem test_witness_SbcFollowsItsPseudocode : (Instr.sbcImm 0xFF).mnemonic = .sbc ∧ (Instr.sbcAbsx 0xFFFF).mnemonic = .sbc := by
  decide

theorem test_witness_ComparesSetCarryAndZN :
    (Instr.cmpImm 0x80).mnemonic = .cmp ∧ (Instr.cpxZp 0xFF).mnemonic = .cpx ∧ (Instr.cpyAbs 0xFFFF).mnemonic = .cpy := by
  decide

theorem test_witness_IncDecStepMemory : (Instr.incAbs 0x8000).mnemonic = .inc ∧ (Instr.decZpx 0xFF).mnemonic = .dec := by decide

theorem test_witness_IncDecStepRegisters :
    Instr.inx.mnemonic = .inx ∧ Instr.iny.mnemonic = .iny ∧ Instr.dex.mnemonic = .dex ∧ Instr.dey.mnemonic = .dey := by decide

theorem test_witness_ShiftsMoveABitThroughCarry :
    (Instr.aslAcc.mnemonic = .asl ∧ Instr.aslAcc.format = .acc) ∧
    ((Instr.aslZp 0xFF).mnemonic = .asl ∧ (Instr.aslZp 0xFF).format ≠ .acc) ∧
    (Instr.lsrAcc.mnemonic = .lsr ∧ Instr.lsrAcc.format = .acc) ∧
    ((Instr.lsrAbs 0x8000).mnemonic = .lsr ∧ (Instr.lsrAbs 0x8000).format ≠ .acc) ∧
    (Instr.rolAcc.mnemonic = .rol ∧ Instr.rolAcc.format = .acc) ∧
    ((Instr.rolZpx 0xFF).mnemonic = .rol ∧ (Instr.rolZpx 0xFF).format ≠ .acc) ∧
    (Instr.rorAcc.mnemonic = .ror ∧ Instr.rorAcc.format = .acc) ∧
    ((Instr.rorAbsx 0xFFFF).mnemonic = .ror ∧ (Instr.rorAbsx 0xFFFF).format ≠ .acc) := by decide

theorem test_witness_JsrPushesTheReturnAddress : (Instr.jsr 0x9000).mnemonic = .jsr := rfl

theorem test_witness_RtsPullsTheReturnAddress : Instr.rts.mnemonic = .rts := rfl

/-- Each branch with its condition met, and not met. -/
theorem test_witness_BranchesTestOneFlag :
    ((Instr.bpl 0x80).mnemonic = .bpl ∧ flagOf 0x20 .n = false ∧ flagOf 0xFF .n = !false) ∧
    ((Instr.bmi 0x7F).mnemonic = .bmi ∧ flagOf 0xFF .n = true ∧ flagOf 0x20 .n = !true) ∧
    ((Instr.bvc 0x80).mnemonic = .bvc ∧ flagOf 0x20 .v = false ∧ flagOf 0xFF .v = !false) ∧
    ((Instr.bvs 0x7F).mnemonic = .bvs ∧ flagOf 0xFF .v = true ∧ flagOf 0x20 .v = !true) ∧
    ((Instr.bcc 0x80).mnemonic = .bcc ∧ flagOf 0x20 .c = false ∧ flagOf 0xFF .c = !false) ∧
    ((Instr.bcs 0x7F).mnemonic = .bcs ∧ flagOf 0xFF .c = true ∧ flagOf 0x20 .c = !true) ∧
    ((Instr.bne 0x80).mnemonic = .bne ∧ flagOf 0x20 .z = false ∧ flagOf 0xFF .z = !false) ∧
    ((Instr.beq 0x7F).mnemonic = .beq ∧ flagOf 0xFF .z = true ∧ flagOf 0x20 .z = !true) := by decide

theorem test_witness_FlagInstructionsWriteOneBit :
    Instr.clc.mnemonic = .clc ∧ Instr.cld.mnemonic = .cld ∧ Instr.cli.mnemonic = .cli ∧ Instr.clv.mnemonic = .clv ∧
    Instr.sec.mnemonic = .sec ∧ Instr.sed.mnemonic = .sed ∧ Instr.sei.mnemonic = .sei ∧ Machine.Flag.c ≠ .d := by decide

theorem test_witness_BrkEntersTheTrap :
    Instr.brk.mnemonic = .brk ∧ (0x0300#16 ≠ stackSlot breaks.sp) ∧ (0x0300#16 ≠ stackSlot (breaks.sp - 1#8)) ∧
    (0x0300#16 ≠ stackSlot (breaks.sp - 2#8)) ∧ (Machine.Flag.c ≠ .b ∧ Machine.Flag.c ≠ .i) := by decide

theorem test_witness_RtiLeavesTheTrap : Instr.rti.mnemonic = .rti := rfl

theorem test_witness_NopChangesNothing : Instr.nop.mnemonic = .nop := rfl

theorem test_witness_UnassignedByteOnlyAdvancesPc :
    isUnassigned (firstUnassigned.peek firstUnassigned.pc) = true ∧
    isUnassigned (unassignedByte.peek unassignedByte.pc) = true := by decide

theorem test_witness_SetZNSetsZeroAndNegativeOnly : Machine.Flag.v ≠ .z ∧ Machine.Flag.v ≠ .n := by decide

theorem test_witness_AdcIsExactAddition : (Instr.adcImm 0x80).mnemonic = .adc ∧ (Instr.adcZp 0x00).mnemonic = .adc := by decide

theorem test_witness_SbcIsExactSubtraction : (Instr.sbcImm 0x80).mnemonic = .sbc ∧ (Instr.sbcZp 0x00).mnemonic = .sbc := by decide

/-- `breaks` has a = 0x11, x = 0x22, y = 0x33: an operand equal to the register, the largest below it, the least above it. -/
theorem test_witness_CompareOrdersUnsigned :
    ((Instr.cmpImm 0x11).mnemonic = .cmp ∧ breaks.a = operandValue (.cmpImm 0x11) breaks) ∧
    ((Instr.cpxImm 0x21).mnemonic = .cpx ∧ operandValue (.cpxImm 0x21) breaks < breaks.x) ∧
    ((Instr.cpyImm 0x34).mnemonic = .cpy ∧ breaks.y < operandValue (.cpyImm 0x34) breaks) ∧
    (Machine.Flag.v ≠ .c ∧ Machine.Flag.v ≠ .z ∧ Machine.Flag.v ≠ .n) := by decide

theorem test_witness_NineRotationsRestore :
    (∀ k : Fin 9, exec .rolAcc (runOf .rolAcc breaks k.castSucc) = .next (runOf .rolAcc breaks k.succ)) ∧
    (∀ k : Fin 9, exec .rorAcc (runOf .rorAcc breaks k.castSucc) = .next (runOf .rorAcc breaks k.succ)) :=
  ⟨fun _ => rfl, fun _ => rfl⟩

/-- The eight stack instructions run, and each makes an access. -/
theorem test_witness_StackAccessesStayInTheStackPage :
    ∀ i ∈ [Instr.pha, .php, .pla, .plp, .jsr 0x9000, .rts, .rti, .brk],
      i.mnemonic ∈ [Mnemonic.pha, .php, .pla, .plp, .jsr, .rts, .rti, .brk] ∧
      ((execOf i breaks).accesses.drop breaks.accesses.length).isEmpty = false := by decide

theorem test_witness_StackAccessesComplete :
    exec .pha breaks = .next (execOf .pha breaks) ∧ exec .php breaks = .next (execOf .php breaks) ∧
    exec .pla breaks = .next (execOf .pla breaks) ∧ exec .plp breaks = .next (execOf .plp breaks) ∧
    exec (.jsr 0x9000) breaks = .next (execOf (.jsr 0x9000) breaks) ∧ exec .rts breaks = .next (execOf .rts breaks) ∧
    exec .rti breaks = .next (execOf .rti breaks) ∧ exec .brk breaks = .next (execOf .brk breaks) :=
  ⟨rfl, rfl, rfl, rfl, rfl, rfl, rfl, rfl⟩

/-- Runs of 256 and of 257 PHA, and the stack pointers 0x00 and 0xFF. -/
theorem test_witness_PushesWrapAfter256 :
    (∀ k, k < 256 → exec .pha (runOf .pha breaks k) = .next (runOf .pha breaks (k + 1))) ∧
    (∀ k, k < 257 → exec .pha (runOf .pha breaks k) = .next (runOf .pha breaks (k + 1))) ∧
    (flat ⟨0x0200, 0x00, 0x77, 0x00, 0x00, 0x24⟩ [] []).sp = 0x00#8 ∧
    (flat ⟨0x0200, 0xFF, 0x77, 0x00, 0x00, 0x24⟩ [] []).sp = 0xFF#8 :=
  ⟨fun _ _ => rfl, fun _ _ => rfl, by decide, by decide⟩

/-- After JSR at sp = 0x00 (C5), a subroutine that has changed a, pc and a byte outside the two slots. -/
theorem test_witness_JsrThenRtsReturns :
    let s := flat ⟨0x0303, 0x00, 0x00, 0x00, 0x00, 0x24⟩ [] []
    let t := execOf (.jsr 0x9000) s
    let u := ({ t.memWrite 0x01FE 0x99 with a := 0x55#8, pc := 0x9123#16 } : State)
    exec (.jsr 0x9000) s = .next t ∧ u.sp = t.sp ∧ u.peek (stackSlot s.sp) = t.peek (stackSlot s.sp) ∧
    u.peek (stackSlot (s.sp - 1#8)) = t.peek (stackSlot (s.sp - 1#8)) ∧ u.peek 0x01FE ≠ t.peek 0x01FE :=
  ⟨rfl, rfl, by decide, by decide, by decide⟩

/-- After BRK at sp = 0x01, a handler that has changed the flags, pc and a byte outside the three slots. -/
theorem test_witness_BrkThenRtiReturns :
    let t := execOf .brk breaks
    let u := ({ t.memWrite 0x0300 0x99 with status := 0xFF#8, pc := 0x9123#16 } : State)
    exec .brk breaks = .next t ∧ u.sp = t.sp ∧ u.a = t.a ∧ u.x = t.x ∧ u.y = t.y ∧
    u.peek (stackSlot breaks.sp) = t.peek (stackSlot breaks.sp) ∧
    u.peek (stackSlot (breaks.sp - 1#8)) = t.peek (stackSlot (breaks.sp - 1#8)) ∧
    u.peek (stackSlot (breaks.sp - 2#8)) = t.peek (stackSlot (breaks.sp - 2#8)) ∧ u.peek 0x0300 ≠ t.peek 0x0300 ∧
    (Machine.Flag.c ≠ .b ∧ Machine.Flag.c ≠ .u) :=
  ⟨rfl, rfl, rfl, rfl, rfl, by decide, by decide, by decide, by decide, by decide⟩

theorem test_witness_RegistersHaveOnlyTheirWriters :
    exec (.rolZp 0x10) breaks = .next (execOf (.rolZp 0x10) breaks) ∧
    Mnemonic.rol ∉ [Mnemonic.lda, .pla, .txa, .tya, .and, .ora, .eor, .adc, .sbc] ∧ (Instr.rolZp 0x10).format ≠ .acc ∧
    Mnemonic.rol ∉ [Mnemonic.ldx, .tax, .tsx, .inx, .dex] ∧ Mnemonic.rol ∉ [Mnemonic.ldy, .tay, .iny, .dey] ∧
    Mnemonic.rol ∉ [Mnemonic.txs, .pha, .php, .pla, .plp, .jsr, .rts, .brk, .rti] ∧
    Mnemonic.rol ∉
      [Mnemonic.jmp, .jsr, .rts, .brk, .rti, .bpl, .bmi, .bvc, .bvs, .bcc, .bcs, .bne, .beq] :=
  ⟨rfl, by decide, by decide, by decide, by decide, by decide, by decide⟩

/-- INX leaves C, I, D, B, V and bit 5; BRK leaves Z and N. -/
theorem test_witness_FlagsHaveOnlyTheirWriters :
    (exec .inx breaks = .next (execOf .inx breaks) ∧
      ∀ f ∈ [Machine.Flag.c, .i, .d, .b, .v, .u], Instr.inx.mnemonic ∉ flagWriters f) ∧
    (exec .brk breaks = .next (execOf .brk breaks) ∧ ∀ f ∈ [Machine.Flag.z, .n], Instr.brk.mnemonic ∉ flagWriters f) :=
  ⟨⟨rfl, by decide⟩, ⟨rfl, by decide⟩⟩

/-- The bytes beside the one stored, and beside BRK's slots 0x0101, 0x0100 and 0x01FF. -/
theorem test_witness_BytesOutsideTheStoreStand :
    (exec (.staAbs 0x0400) breaks = .next (execOf (.staAbs 0x0400) breaks) ∧
      0x03FF#16 ∉ storedAddrs (.staAbs 0x0400) breaks ∧ 0x0401#16 ∉ storedAddrs (.staAbs 0x0400) breaks) ∧
    (exec .brk breaks = .next (execOf .brk breaks) ∧
      0x0102#16 ∉ storedAddrs .brk breaks ∧ 0x0200#16 ∉ storedAddrs .brk breaks ∧ 0x01FE#16 ∉ storedAddrs .brk breaks) ∧
    (exec .nop breaks = .next (execOf .nop breaks) ∧ 0x0100#16 ∉ storedAddrs .nop breaks) :=
  ⟨⟨rfl, by decide, by decide⟩, ⟨rfl, by decide, by decide, by decide⟩, ⟨rfl, by decide⟩⟩

theorem test_witness_PcAdvancesByTheLength :
    (decode (wrapping.peekBytes wrapping.pc 3) = .ok (.ldaImm 0x77, [0x00]) ∧ step wrapping = .next (tickOf wrapping) ∧
      Mnemonic.lda ∉ [Mnemonic.jmp, .jsr, .rts, .brk, .rti] ∧ branchTaken .lda wrapping.status = false) ∧
    (decode (untakenBranch.peekBytes untakenBranch.pc 3) = .ok (.beq 0x20, [0x00]) ∧
      step untakenBranch = .next (tickOf untakenBranch) ∧ Mnemonic.beq ∉ [Mnemonic.jmp, .jsr, .rts, .brk, .rti] ∧
      branchTaken .beq untakenBranch.status = false) :=
  ⟨⟨by decide, rfl, by decide, by decide⟩, ⟨by decide, rfl, by decide, by decide⟩⟩

theorem test_witness_LiveBreakFlagIsNeverRead :
    step breaks = .next (tickOf breaks) ∧ step prgStore = .next (tickOf prgStore) ∧ (Machine.Flag.i ≠ .b) :=
  ⟨rfl, rfl, by decide⟩

theorem test_witness_InterruptAndDecimalFlagsSteerNothing :
    exec (.adcImm 0x01) breaks = .next (execOf (.adcImm 0x01) breaks) ∧ exec .brk breaks = .next (execOf .brk breaks) ∧
    (Machine.Flag.i = .i ∨ Machine.Flag.i = .d) ∧ (Machine.Flag.d = .i ∨ Machine.Flag.d = .d) ∧ Machine.Flag.c ≠ .d :=
  ⟨rfl, rfl, by decide, by decide, by decide⟩

theorem test_witness_SnapshotAndLoadAgree : (0x20#8).getLsbD 5 = true ∧ (0xDF#8).getLsbD 5 = false := by decide

theorem test_witness_BootRefusesWhatHasNoBus :
    1 ≠ Config.nromMapperId ∧ 0 = Config.nromMapperId ∧
    (List.replicate 16384 0xEA#8).length = 16384 ∧ (List.replicate 32768 0xEA#8).length = 32768 ∧
    ((List.replicate 16385 0xEA#8).length ≠ 16384 ∧ (List.replicate 16385 0xEA#8).length ≠ 32768) := by
  simp only [List.length_replicate]
  decide

/-- A cartridge of one bank of NOPs boots, on a RAM with a byte in its last place. -/
theorem test_witness_BootedMachineMeetsInvariant :
    Memory.wf [(0x7FFF, 0x42)] Config.ramSize = true ∧
    State.boot 0 (List.replicate 16384 0xEA#8) [(0x7FFF, 0x42)] =
      .ok (State.powerUp (.mapped (.nrom .one)) (Memory.ofBytes (List.replicate 16384 0xEA#8)) [(0x7FFF, 0x42)]) := by
  refine ⟨by decide, ?_⟩
  have h : (List.replicate 16384 0xEA#8).length = 16384 := List.length_replicate
  generalize List.replicate 16384 0xEA#8 = bytes at h ⊢
  simp only [State.boot, h]
  rfl

/-- A run that ends where it begins, and one that ends after three ticks. -/
theorem test_witness_RunEndsAtTheFirstBoundary :
    (runToEnd 0x0200 0 breaks).isSome = true ∧
    (runToEnd 0x0203 5 (flat regs0 [] [0xEA, 0xEA, 0xEA])).map (fun t => t.pc) = some 0x0203 := by decide

end Sys2Proof.Tests
end

section
/-! PROOFS. What an instruction does, said once: `exec i` is the meaning of `i`'s mnemonic at `i`'s mode, and the
state it answers is `afterInstr i`, field by field. -/

namespace Sys2Proof

open Sys2Proof.Machine Sys2Proof.Claims

/-! ### The operand of an instruction in the model's operand forms -/

/-- The address form of an instruction's mode. A mode without an effective address: the address 0, not used. -/
def Instr.addrForm (i : Instr) : AddrForm :=
  match i.format with
  | .zp => .zp (byteOperand i)
  | .zpx => .zpx (byteOperand i)
  | .zpy => .zpy (byteOperand i)
  | .abs => .abs (wordOperand i)
  | .absx => .absx (wordOperand i)
  | .absy => .absy (wordOperand i)
  | .indx => .indx (byteOperand i)
  | .indy => .indy (byteOperand i)
  | _ => .abs 0#16

/-- The operand form of an instruction that loads a value. -/
def Instr.valueForm (i : Instr) : ValueForm :=
  match i.format with
  | .imm => .imm (byteOperand i)
  | _ => .mem i.addrForm

/-- The operand form of a shift. -/
def Instr.targetForm (i : Instr) : TargetForm :=
  match i.format with
  | .acc => .acc
  | _ => .mem i.addrForm

/-- The operand form of a jump. -/
def Instr.jumpForm (i : Instr) : JumpForm :=
  match i.format with
  | .ind => .ind (wordOperand i)
  | _ => .abs (wordOperand i)

/-- The meaning of an instruction by its mnemonic, at the operand form of its mode. -/
def Instr.meaning (i : Instr) : State → Result :=
  match i.mnemonic with
  | .lda => loadInto .a i.valueForm i.opcode
  | .ldx => loadInto .x i.valueForm i.opcode
  | .ldy => loadInto .y i.valueForm i.opcode
  | .sta => storeFrom .a i.addrForm i.opcode
  | .stx => storeFrom .x i.addrForm i.opcode
  | .sty => storeFrom .y i.addrForm i.opcode
  | .tax => transfer .a .x i.opcode
  | .tay => transfer .a .y i.opcode
  | .txa => transfer .x .a i.opcode
  | .tya => transfer .y .a i.opcode
  | .tsx => fun s => .next ((s.setRegZN .x s.sp).retire i.opcode)
  | .txs => fun s => .next (State.retire { s with sp := s.x } i.opcode)
  | .pha => fun s => .next ((s.push s.a).retire i.opcode)
  | .php => fun s => .next ((s.push (pushedStatus s.status)).retire i.opcode)
  | .pla => fun s => .next ((s.pull.2.setRegZN .a s.pull.1).retire i.opcode)
  | .plp => fun s => .next ((s.pull.2.setStatus (pulledStatus s.pull.1)).retire i.opcode)
  | .and => logicInto (· &&& ·) i.valueForm i.opcode
  | .ora => logicInto (· ||| ·) i.valueForm i.opcode
  | .eor => logicInto (· ^^^ ·) i.valueForm i.opcode
  | .bit => testBits i.addrForm i.opcode
  | .adc => addInto i.valueForm i.opcode
  | .sbc => subtractFrom i.valueForm i.opcode
  | .cmp => compareReg .a i.valueForm i.opcode
  | .cpx => compareReg .x i.valueForm i.opcode
  | .cpy => compareReg .y i.valueForm i.opcode
  | .inc => stepMemory incByte i.addrForm i.opcode
  | .dec => stepMemory decByte i.addrForm i.opcode
  | .inx => stepReg incByte .x i.opcode
  | .iny => stepReg incByte .y i.opcode
  | .dex => stepReg decByte .x i.opcode
  | .dey => stepReg decByte .y i.opcode
  | .asl => shiftTarget shiftAsl i.targetForm i.opcode
  | .lsr => shiftTarget shiftLsr i.targetForm i.opcode
  | .rol => shiftTarget shiftRol i.targetForm i.opcode
  | .ror => shiftTarget shiftRor i.targetForm i.opcode
  | .jmp => jumpTo i.jumpForm i.opcode
  | .jsr => fun s => .next (((s.pushWord (s.pc - 1#16)).jump (wordOperand i)).retire i.opcode)
  | .rts => fun s => .next ((s.pullWord.2.jump (s.pullWord.1 + 1#16)).retire i.opcode)
  | .bpl => branchIf .n false (byteOperand i) i.opcode
  | .bmi => branchIf .n true (byteOperand i) i.opcode
  | .bvc => branchIf .v false (byteOperand i) i.opcode
  | .bvs => branchIf .v true (byteOperand i) i.opcode
  | .bcc => branchIf .c false (byteOperand i) i.opcode
  | .bcs => branchIf .c true (byteOperand i) i.opcode
  | .bne => branchIf .z false (byteOperand i) i.opcode
  | .beq => branchIf .z true (byteOperand i) i.opcode
  | .clc => writeFlag .c false i.opcode
  | .cld => writeFlag .d false i.opcode
  | .cli => writeFlag .i false i.opcode
  | .clv => writeFlag .v false i.opcode
  | .sec => writeFlag .c true i.opcode
  | .sed => writeFlag .d true i.opcode
  | .sei => writeFlag .i true i.opcode
  | .brk => fun s => .next (s.enterTrap.retire i.opcode)
  | .rti => fun s => .next (s.leaveTrap.retire i.opcode)
  | .nop => fun s => .next (s.retire i.opcode)
  | .unassigned => fun s => .next (s.returning 0#8)

theorem hiByte_append_loByte (w : Addr) : hiByte w ++ loByte w = w := wordOf_hiByte_loByte w

/-- Every arm of `exec` is the meaning of its instruction's mnemonic at its mode (R77): by definition, once the operand
word's two bytes are put together again. -/
theorem exec_eq_meaning (i : Instr) : exec i = i.meaning := by
  cases i <;>
    simp only [Instr.meaning, Instr.mnemonic, Instr.valueForm, Instr.targetForm, Instr.addrForm, Instr.jumpForm,
      Instr.format, wordOperand, Instr.operandBytes, wordBytes, hiByte_append_loByte] <;>
    rfl

/-! ### The forms and the words of the statements agree -/

/-- Only JMP has the indirect mode (R88). -/
theorem Instr.format_ne_ind {i : Instr} (h : i.mnemonic ≠ .jmp) : i.format ≠ .ind := by
  cases i <;> simp_all [Instr.mnemonic, Instr.format]

/-- Only the shifts have the accumulator mode (R80). -/
theorem Instr.format_ne_acc {i : Instr} (h : i.mnemonic ∉ [.asl, .lsr, .rol, .ror]) : i.format ≠ .acc := by
  cases i <;> simp_all [Instr.mnemonic, Instr.format]

/-- The shifts, INC, DEC and BIT have no immediate mode (R81). -/
theorem Instr.format_ne_imm {i : Instr} (h : i.mnemonic ∈ [.asl, .lsr, .rol, .ror, .inc, .dec, .bit]) :
    i.format ≠ .imm := by
  cases i <;> simp_all [Instr.mnemonic, Instr.format]

/-- JMP has the absolute and the indirect mode (R85, R88). -/
theorem Instr.format_of_jmp {i : Instr} (h : i.mnemonic = .jmp) : i.format = .abs ∨ i.format = .ind := by
  cases i <;> simp_all [Instr.mnemonic, Instr.format]

theorem formAddr_addrForm {i : Instr} (s : State) (h : i.format ≠ .ind) : s.formAddr i.addrForm = modeAddr i s := by
  simp only [Instr.addrForm, modeAddr]
  cases hf : i.format with
  | ind => exact absurd hf h
  | _ => rfl

theorem formReads_addrForm {i : Instr} (s : State) (h : i.format ≠ .ind) : s.formReads i.addrForm = modeReads i s := by
  simp only [Instr.addrForm, modeReads]
  cases hf : i.format with
  | ind => exact absurd hf h
  | _ => rfl

theorem formValue_valueForm {i : Instr} (s : State) (hi : i.format ≠ .ind) (ha : i.format ≠ .acc) :
    s.formValue i.valueForm = operandValue i s := by
  have hf := formAddr_addrForm s hi
  simp only [Instr.valueForm, operandValue]
  cases hm : i.format with
  | ind => exact absurd hm hi
  | acc => exact absurd hm ha
  | imm => rfl
  | _ => exact congrArg s.peek hf

theorem valueReads_valueForm {i : Instr} (s : State) (hi : i.format ≠ .ind) (ha : i.format ≠ .acc) :
    s.valueReads i.valueForm = operandReads i s := by
  have hf := formAddr_addrForm s hi
  have hr := formReads_addrForm s hi
  simp only [Instr.valueForm, operandReads]
  cases hm : i.format with
  | ind => exact absurd hm hi
  | acc => exact absurd hm ha
  | imm => rfl
  | _ => simp only [State.valueReads, hf, hr]

/-- Without the immediate mode the value is the byte at the effective address (R92). -/
theorem valueForm_eq_mem {i : Instr} (h : i.format ≠ .imm) : i.valueForm = .mem i.addrForm := by
  simp only [Instr.valueForm]

/-! ### The state after an instruction, field by field -/

/-- What a shift makes of its operand (R141 to R144). -/
def shiftedOperand (i : Instr) (s : State) : Shifted :=
  match i.mnemonic with
  | .asl => shiftAsl (operandValue i s) (flagOf s.status .c)
  | .lsr => shiftLsr (operandValue i s) (flagOf s.status .c)
  | .rol => shiftRol (operandValue i s) (flagOf s.status .c)
  | _ => shiftRor (operandValue i s) (flagOf s.status .c)

/-- The accumulator after an instruction (R15). -/
def aAfter (i : Instr) (s : State) : Byte :=
  match i.mnemonic with
  | .lda => operandValue i s
  | .pla => s.peek (stackSlot (s.sp + 1#8))
  | .txa => s.x
  | .tya => s.y
  | .and => s.a &&& operandValue i s
  | .ora => s.a ||| operandValue i s
  | .eor => s.a ^^^ operandValue i s
  | .adc => adcResult s.a (operandValue i s) (flagOf s.status .c)
  | .sbc => sbcResult s.a (operandValue i s) (flagOf s.status .c)
  | .asl | .lsr | .rol | .ror => if i.format = .acc then (shiftedOperand i s).result else s.a
  | _ => s.a

/-- Index register X after an instruction (R25). -/
def xAfter (i : Instr) (s : State) : Byte :=
  match i.mnemonic with
  | .ldx => operandValue i s
  | .tax => s.a
  | .tsx => s.sp
  | .inx => s.x + 1#8
  | .dex => s.x - 1#8
  | _ => s.x

/-- Index register Y after an instruction (R25). -/
def yAfter (i : Instr) (s : State) : Byte :=
  match i.mnemonic with
  | .ldy => operandValue i s
  | .tay => s.a
  | .iny => s.y + 1#8
  | .dey => s.y - 1#8
  | _ => s.y

/-- The stack pointer after an instruction (R26; decision D2). -/
def spAfter (i : Instr) (s : State) : Byte :=
  match i.mnemonic with
  | .txs => s.x
  | .pha | .php => s.sp - 1#8
  | .pla | .plp => s.sp + 1#8
  | .jsr => s.sp - 2#8
  | .rts => s.sp + 2#8
  | .brk => s.sp - 3#8
  | .rti => s.sp + 3#8
  | _ => s.sp

/-- The program counter after an instruction (R27). -/
def pcAfter (i : Instr) (s : State) : Addr :=
  match i.mnemonic with
  | .jmp => modeAddr i s
  | .jsr => wordOperand i
  | .rts => s.peek (stackSlot (s.sp + 2#8)) ++ s.peek (stackSlot (s.sp + 1#8)) + 1#16
  | .brk => s.peek 0xFFFF#16 ++ s.peek 0xFFFE#16
  | .rti => s.peek (stackSlot (s.sp + 3#8)) ++ s.peek (stackSlot (s.sp + 2#8))
  | m => if branchTaken m s.status then s.pc + (byteOperand i).signExtend 16 else s.pc

/-- The status after an instruction (R16 to R24). -/
def statusAfter (i : Instr) (s : State) : Byte :=
  match i.mnemonic with
  | .lda | .pla | .txa | .tya | .and | .ora | .eor => withZN s.status (aAfter i s)
  | .ldx | .tax | .tsx | .inx | .dex => withZN s.status (xAfter i s)
  | .ldy | .tay | .iny | .dey => withZN s.status (yAfter i s)
  | .inc => withZN s.status (operandValue i s + 1#8)
  | .dec => withZN s.status (operandValue i s - 1#8)
  | .asl | .lsr | .rol | .ror => shiftStatus s.status (shiftedOperand i s)
  | .bit => bitStatus s.status s.a (operandValue i s)
  | .adc => adcStatus s.status s.a (operandValue i s)
  | .sbc => sbcStatus s.status s.a (operandValue i s)
  | .cmp => compareStatus s.status s.a (operandValue i s)
  | .cpx => compareStatus s.status s.x (operandValue i s)
  | .cpy => compareStatus s.status s.y (operandValue i s)
  | .clc => withFlag s.status .c false
  | .cld => withFlag s.status .d false
  | .cli => withFlag s.status .i false
  | .clv => withFlag s.status .v false
  | .sec => withFlag s.status .c true
  | .sed => withFlag s.status .d true
  | .sei => withFlag s.status .i true
  | .plp | .rti => pulledStatus (s.peek (stackSlot (s.sp + 1#8)))
  | .brk => withFlag (withFlag s.status .b false) .i true
  | _ => s.status

/-- The count an instruction returns (R96, R197, R199). -/
def countAfter (i : Instr) (s : State) : Byte :=
  match i.mnemonic with
  | .unassigned => 0#8
  | m => if branchTaken m s.status then baseCycles i.opcode + 1#8 else baseCycles i.opcode

/-- The state after an instruction: the registers above, and the memory and outputs its accesses make. -/
def afterInstr (i : Instr) (s : State) : State where
  pc := pcAfter i s
  sp := spAfter i s
  a := aAfter i s
  x := xAfter i s
  y := yAfter i s
  status := statusAfter i s
  bus := s.bus
  ram := (dataAccesses i s).foldl (replayRam s.bus) s.ram
  prg := s.prg
  events := s.events ++ (dataAccesses i s).flatMap (eventsOf s.bus)
  cycles := some (countAfter i s)
  accesses := s.accesses ++ dataAccesses i s

/-- The reads of an operand leave the RAM as it is. -/
@[simp] theorem foldl_replayRam_operandReads (i : Instr) (s : State) (b : BusInstance) (m : Memory) :
    (operandReads i s).foldl (replayRam b) m = m := by
  simp only [operandReads, modeReads, zpWordReads]
  cases i.format <;> rfl

@[simp] theorem foldl_replayRam_modeReads (i : Instr) (s : State) (b : BusInstance) (m : Memory) :
    (modeReads i s).foldl (replayRam b) m = m := by
  simp only [modeReads, zpWordReads]
  cases i.format <;> rfl

@[simp] theorem flatMap_eventsOf_operandReads (i : Instr) (s : State) (b : BusInstance) :
    (operandReads i s).flatMap (eventsOf b) = [] := by
  simp only [operandReads, modeReads, zpWordReads]
  cases i.format <;> rfl

@[simp] theorem flatMap_eventsOf_modeReads (i : Instr) (s : State) (b : BusInstance) :
    (modeReads i s).flatMap (eventsOf b) = [] := by
  simp only [modeReads, zpWordReads]
  cases i.format <;> rfl

theorem jumpAddr_jumpForm {i : Instr} (s : State) (h : i.mnemonic = .jmp) :
    s.jumpAddr i.jumpForm = modeAddr i s := by
  rcases Instr.format_of_jmp h with hf | hf <;> simp only [Instr.jumpForm, modeAddr, hf] <;> rfl

theorem jumpReads_jumpForm {i : Instr} (s : State) (h : i.mnemonic = .jmp) :
    s.jumpReads i.jumpForm = modeReads i s := by
  rcases Instr.format_of_jmp h with hf | hf <;> simp only [Instr.jumpForm, modeReads, hf] <;> rfl

theorem targetForm_eq_mem {i : Instr} (h : i.format ≠ .acc) : i.targetForm = .mem i.addrForm := by
  simp only [Instr.targetForm]

/-- ROR puts the carry into bit 7 (R144). -/
theorem shiftRor_eq (v : Byte) (c : Bool) :
    shiftRor v c = ⟨(if c then 0x80#8 else 0#8) ||| (v >>> 1), v.getLsbD 0⟩ := by
  cases c <;> rfl

/-- Every meaning answers the state after its instruction: the meaning's own lemma gives the fields one by one. -/
theorem meaning_eq_afterInstr (i : Instr) (s : State) : i.meaning s = .next (afterInstr i s) := by
  have sub_two : ∀ b : Byte, b - 1#8 - 1#8 = b - 2#8 := fun b => by bv_omega
  have sub_three : ∀ b : Byte, b - 2#8 - 1#8 = b - 3#8 := fun b => by bv_omega
  have add_two : ∀ b : Byte, b + 1#8 + 1#8 = b + 2#8 := fun b => by bv_omega
  have add_three : ∀ b : Byte, b + 2#8 + 1#8 = b + 3#8 := fun b => by bv_omega
  simp only [Instr.meaning, afterInstr, pcAfter, spAfter, aAfter, xAfter, yAfter, statusAfter, countAfter, dataAccesses,
    shiftedOperand, branchTaken, branchTest]
  cases hm : i.mnemonic with
  | lda | ldx | ldy | and | ora | eor | adc | sbc | cmp | cpx | cpy =>
    simp [hm, loadInto_eq, logicInto_eq, addInto_eq, subtractFrom_eq, compareReg_eq, formValue_valueForm,
      valueReads_valueForm, Instr.format_ne_ind, Instr.format_ne_acc, State.setReg]
  | bit =>
    simp [hm, testBits_eq, ← valueForm_eq_mem, formValue_valueForm, valueReads_valueForm, Instr.format_ne_ind,
      Instr.format_ne_acc, Instr.format_ne_imm]
  | sta | stx | sty =>
    simp [hm, storeFrom_eq, State.store_eq, formAddr_addrForm, formReads_addrForm, Instr.format_ne_ind]
  | inc | dec =>
    simp [hm, stepMemory_eq, State.store_eq, ← valueForm_eq_mem, formAddr_addrForm, formValue_valueForm,
      valueReads_valueForm, Instr.format_ne_ind, Instr.format_ne_acc, Instr.format_ne_imm, incByte, decByte]
  | asl | lsr | rol | ror =>
    by_cases ha : i.format = .acc
    · simp [Instr.targetForm, ha, shiftTarget_acc_eq, operandReads, operandValue, dataAccesses.shiftWrite]
    · simp [hm, targetForm_eq_mem ha, ha, shiftTarget_mem_eq, State.store_eq, ← valueForm_eq_mem, formAddr_addrForm,
        formValue_valueForm, valueReads_valueForm, Instr.format_ne_ind, Instr.format_ne_imm, dataAccesses.shiftWrite,
        shiftAsl, shiftLsr, shiftRol, shiftRor_eq, bitByte]
  | jmp => simp [jumpTo_eq, jumpAddr_jumpForm s hm, jumpReads_jumpForm s hm]
  | bpl | bmi | bvc | bvs | bcc | bcs | bne | beq => simp [branchIf_eq, sext16]
  | pha | php => simp [State.push_eq, pushedStatus, State.retire, State.returning]
  | pla | plp =>
    simp [State.pull_eq, State.setReg, State.setRegZN, State.setZN, State.setStatus, State.retire, State.returning,
      replayRam, eventsOf]
  | jsr => simp [State.pushWord, State.push_eq, hiByte, loByte, State.jump, State.retire, State.returning, sub_two]
  | rts => simp [State.pullWord_eq, wordOf, State.jump, State.retire, State.returning, replayRam, eventsOf, add_two]
  | brk =>
    simp [enterTrap_record, trapFrame, State.pushWord, State.push_eq, pushedStatus, hiByte, loByte, wordOf,
      State.setFlag, State.setStatus, State.jump, State.retire, State.returning, replayRam, eventsOf, sub_two,
      sub_three]
  | rti => simp [leaveTrap_record, wordOf, State.retire, State.returning, replayRam, eventsOf, add_two, add_three]
  | tax | tay | txa | tya | inx | iny | dex | dey =>
    simp [transfer_eq, stepReg_eq, incByte, decByte, State.setReg]
  | tsx | txs | nop | unassigned | clc | cld | cli | clv | sec | sed | sei =>
    simp [writeFlag_eq, State.setRegZN, State.setReg, State.setZN, State.setStatus, State.retire, State.returning]

/-- Every instruction completes, in the state after it (R77, R99). -/
theorem exec_eq_afterInstr (i : Instr) (s : State) : exec i s = .next (afterInstr i s) := by
  rw [exec_eq_meaning, meaning_eq_afterInstr]

theorem eq_afterInstr_of_exec {i : Instr} {s t : State} (h : exec i s = .next t) : t = afterInstr i s := by
  rw [exec_eq_afterInstr] at h
  cases h
  rfl

/-- A tick ends in the state after the fetched instruction (R77). -/
theorem step_eq_afterInstr (s : State) :
    step s = .next (afterInstr s.beginTick.fetchInstr.1 s.beginTick.fetchInstr.2) :=
  exec_eq_afterInstr _ _

theorem eq_afterInstr_of_step {s t : State} (h : step s = .next t) :
    t = afterInstr s.beginTick.fetchInstr.1 s.beginTick.fetchInstr.2 := by
  rw [step_eq_afterInstr] at h
  cases h
  rfl

end Sys2Proof
end

section
/-! PROOFS. What every tick keeps: memory and events follow the recorded accesses, status bit 5 stays set, and both
memories stay canonical; and the states from which a session starts. -/

namespace Sys2Proof

open Sys2Proof.Machine Sys2Proof.Claims

/-- An instruction acts on memory and events through its accesses alone (R13, R94). -/
theorem followsBy_afterInstr (i : Instr) (s : State) : FollowsBy (dataAccesses i s) s (afterInstr i s) :=
  ⟨rfl, rfl, rfl, rfl, rfl⟩

/-- Settles O10: the accesses of the fetch and then those of the instruction make memory and events, and a tick's record
begins empty. -/
theorem tickActsOnlyThroughItsAccesses : Obligations.TickActsOnlyThroughItsAccesses := by
  intro s t h
  obtain ⟨log, hfetch⟩ := followsBy_fetchInstr s.beginTick
  have htick := hfetch.trans (followsBy_afterInstr s.beginTick.fetchInstr.1 s.beginTick.fetchInstr.2)
  rw [← eq_afterInstr_of_step h] at htick
  have hlog : t.accesses = log ++ dataAccesses s.beginTick.fetchInstr.1 s.beginTick.fetchInstr.2 := htick.accesses
  rwa [hlog]

@[simp] theorem fetchInstr_status (s : State) : s.fetchInstr.2.status = s.status := by rw [State.fetchInstr_frame]

/-- No instruction clears status bit 5: PLP and RTI set it, and no other instruction writes it (R17). -/
theorem flagOf_statusAfter_u (i : Instr) {s : State} (h : flagOf s.status .u = true) :
    flagOf (statusAfter i s) .u = true := by
  simp only [statusAfter]
  cases i.mnemonic <;>
    simp [h, shiftStatus, bitStatus, adcStatus, sbcStatus, compareStatus]

/-- Settles O3: bit 5 by the status each instruction leaves, the RAM because replayed accesses keep the canonical form,
the PRG image because it stands. -/
theorem everyTickKeepsInvariant : Obligations.EveryTickKeepsInvariant := by
  intro s t ⟨hu, hram, hprg⟩ h
  have hacts := tickActsOnlyThroughItsAccesses s t h
  refine ⟨?_, ?_, ?_⟩
  · rw [eq_afterInstr_of_step h]
    exact flagOf_statusAfter_u _ (by simpa using hu)
  · rw [hacts.ram, hacts.bus]
    exact foldl_replayRam_wf t.accesses hram
  · rw [hacts.prg, hacts.bus]
    exact hprg

/-- Settles O1: reset, field by field. -/
theorem resetSetsTheStatedRegisters : Obligations.ResetSetsTheStatedRegisters :=
  State.resetToPowerUp_eq

/-- Settles O2: reset's status has bit 5 set, empty memories are canonical, and the empty image's reset vector is 0. -/
theorem resetStateMeetsInvariant : Obligations.ResetStateMeetsInvariant :=
  ⟨⟨rfl, rfl, rfl⟩, rfl⟩

/-- The length of an image tells the size of the PRG memory of the bus built for it (R44). -/
theorem prgSize_of_prgBanksOf {n : Nat} {banks : PrgBanks} (h : prgBanksOf n = some banks) :
    (BusInstance.mapped (.nrom banks)).prgSize = n := by
  unfold prgBanksOf at h
  split at h
  · next hn =>
    cases h
    exact hn.symm
  · split at h
    · next hn =>
      cases h
      exact hn.symm
    · cases h

/-- A machine powers up with the RAM and the PRG image it is given, in the reset status (R186, R191). -/
theorem inv_powerUp {bus : BusInstance} {prg ram0 : Memory} (hprg : prg.wf bus.prgSize = true)
    (hram : ram0.wf bus.ramSize = true) : Inv (State.powerUp bus prg ram0) :=
  ⟨show flagOf 0x34#8 .u = true from rfl, hram, hprg⟩

/-- Settles O56: boot answers only a machine powered up on an image as long as its bus's PRG memory. -/
theorem bootedMachineMeetsInvariant : Obligations.BootedMachineMeetsInvariant := by
  intro id bytes ram0 s hram h
  unfold State.boot at h
  split at h
  · split at h
    · next banks hbanks =>
      cases h
      exact inv_powerUp (Memory.wf_ofBytes (prgSize_of_prgBanksOf hbanks).ge) hram
    · cases h
  · cases h

/-- Settles O54: the two directions of the check of status bit 5. -/
theorem snapshotAndLoadAgree : Obligations.SnapshotAndLoadAgree := by
  refine ⟨fun s => rfl, fun s c h => ?_, fun s c h => ?_⟩
  · exact ⟨_, if_pos h, rfl, rfl, rfl, rfl, rfl, rfl⟩
  · exact if_neg (by simpa [flagOf, Flag.bit] using h)

/-- Settles O58: the bit numbers and masks by definition, the write by `flagOf_withFlag`. -/
theorem statusBitsStandWhereTheSpecPutsThem : Obligations.StatusBitsStandWhereTheSpecPutsThem := by
  intro p
  refine ⟨⟨rfl, rfl, rfl, rfl, rfl, rfl, rfl, rfl⟩, ⟨rfl, rfl, rfl, rfl, rfl, rfl, rfl, rfl⟩, fun f g b => ?_⟩
  exact flagOf_withFlag p f g b

end Sys2Proof
end

section
/-! PROOFS. What an instruction leaves unchanged: registers, bytes, and `pc` up to the fetch. -/

namespace Sys2Proof

open Sys2Proof.Machine Sys2Proof.Claims

theorem aAfter_of_not_writer {i : Instr} (s : State)
    (h : i.mnemonic ∉ [.lda, .pla, .txa, .tya, .and, .ora, .eor, .adc, .sbc]) (hf : i.format ≠ .acc) :
    aAfter i s = s.a := by
  simp only [aAfter]
  cases hm : i.mnemonic <;> simp_all

theorem xAfter_of_not_writer {i : Instr} (s : State) (h : i.mnemonic ∉ [.ldx, .tax, .tsx, .inx, .dex]) :
    xAfter i s = s.x := by
  simp only [xAfter]
  cases hm : i.mnemonic <;> simp_all

theorem yAfter_of_not_writer {i : Instr} (s : State) (h : i.mnemonic ∉ [.ldy, .tay, .iny, .dey]) :
    yAfter i s = s.y := by
  simp only [yAfter]
  cases hm : i.mnemonic <;> simp_all

theorem spAfter_of_not_writer {i : Instr} (s : State)
    (h : i.mnemonic ∉ [.txs, .pha, .php, .pla, .plp, .jsr, .rts, .brk, .rti]) : spAfter i s = s.sp := by
  simp only [spAfter]
  cases hm : i.mnemonic <;> simp_all

/-- Only the jumps, calls and returns and a taken branch overwrite `pc` (R27). -/
theorem pcAfter_of_no_transfer {i : Instr} (s : State) (h : i.mnemonic ∉ [.jmp, .jsr, .rts, .brk, .rti])
    (ht : branchTaken i.mnemonic s.status = false) : pcAfter i s = s.pc := by
  simp only [pcAfter]
  cases hm : i.mnemonic <;> simp_all

theorem branchTaken_of_not_branch {m : Mnemonic} (p : Byte) (h : m ∉ [.bpl, .bmi, .bvc, .bvs, .bcc, .bcs, .bne, .beq]) :
    branchTaken m p = false := by
  cases m <;> simp_all [branchTaken, branchTest]

/-- Settles O48: each register's field of the state after the instruction, for the mnemonics that do not write it. -/
theorem registersHaveOnlyTheirWriters : Obligations.RegistersHaveOnlyTheirWriters := by
  intro i s t h
  cases eq_afterInstr_of_exec h
  refine ⟨aAfter_of_not_writer s, xAfter_of_not_writer s, yAfter_of_not_writer s, spAfter_of_not_writer s, fun hm => ?_,
    rfl, rfl⟩
  exact pcAfter_of_no_transfer s (by simp_all) (branchTaken_of_not_branch s.status (by simp_all))

/-- A replayed access leaves every byte but the one it writes (R39, R40). -/
theorem read_replayRam (bus : BusInstance) (m : Memory) {e : Access} {b : Addr} (h : ∀ v, e ≠ .write b v) :
    (replayRam bus m e).read b.toNat = m.read b.toNat := by
  cases e with
  | read addr v => rfl
  | write addr v =>
    have hne : b.toNat ≠ addr.toNat := fun e => h v (by rw [BitVec.eq_of_toNat_eq e])
    simp only [replayRam]
    split
    · exact Memory.read_write_other m v hne
    · rfl

theorem read_foldl_replayRam (bus : BusInstance) {log : List Access} {b : Addr} (h : ∀ v, .write b v ∉ log)
    (m : Memory) : (log.foldl (replayRam bus) m).read b.toNat = m.read b.toNat := by
  induction log generalizing m with
  | nil => rfl
  | cons e log ih =>
    rw [List.foldl_cons, ih (fun v hv => h v (List.mem_cons_of_mem e hv)),
      read_replayRam bus m (fun v he => h v (he ▸ List.mem_cons_self))]

/-- What follows by accesses that do not write an address reads there as before. -/
theorem FollowsBy.peek_eq {log : List Access} {s t : State} (hf : FollowsBy log s t) {b : Addr}
    (h : ∀ v, .write b v ∉ log) : t.peek b = s.peek b := by
  simp only [State.peek, hf.bus, hf.prg, hf.ram, read_foldl_replayRam s.bus h]

theorem write_not_mem_modeReads (i : Instr) (s : State) (b : Addr) (v : Byte) : .write b v ∉ modeReads i s := by
  simp only [modeReads, zpWordReads]
  cases i.format <;> simp

theorem write_not_mem_operandReads (i : Instr) (s : State) (b : Addr) (v : Byte) : .write b v ∉ operandReads i s := by
  have h := write_not_mem_modeReads i s b v
  simp only [operandReads]
  cases i.format <;> simp [h]

/-- The addresses an instruction writes are those it stores to (R94). -/
theorem mem_storedAddrs_of_write {i : Instr} {s : State} {b : Addr} {v : Byte} (h : .write b v ∈ dataAccesses i s) :
    b ∈ storedAddrs i s := by
  have hm := write_not_mem_modeReads i s b v
  have ho := write_not_mem_operandReads i s b v
  simp only [dataAccesses, dataAccesses.shiftWrite] at h
  simp only [storedAddrs]
  cases hi : i.mnemonic with
  | jsr | brk =>
    simp only [hi, List.mem_cons, Access.write.injEq, reduceCtorEq, List.not_mem_nil, or_false] at h ⊢
    tauto
  | _ => simp_all

/-- Settles O50: the instruction acts on memory through its accesses, and they write only where it stores. -/
theorem bytesOutsideTheStoreStand : Obligations.BytesOutsideTheStoreStand := by
  intro i s t h b hb
  rw [eq_afterInstr_of_exec h]
  exact (followsBy_afterInstr i s).peek_eq fun v hv => hb (mem_storedAddrs_of_write hv)

/-- A tick fetches the instruction that the bytes at `pc` decode to, and its bytes only (R61, R62, R76). -/
theorem fetchInstr_eq_of_decode {s : State} {i : Instr} {rest : List Byte}
    (h : decode (s.peekBytes s.pc 3) = .ok (i, rest)) : s.beginTick.fetchInstr = (i, fetched s (encode i).length) := by
  have hsound := opcodeEntry_sound (s.peek s.pc)
  have two : s.pc + 1#16 + 1#16 = s.pc + 2#16 := by bv_omega
  have three : s.pc + 2#16 + 1#16 = s.pc + 3#16 := by bv_omega
  simp only [State.peekBytes, decode] at h
  cases he : opcodeEntry (s.peek s.pc) with
  | plain j =>
    rw [he] at h hsound
    cases h
    rw [State.fetchInstr_plain (s := s.beginTick) he, hsound.1]
    simp [fetched, List.range_succ]
  | byte f =>
    rw [he] at h hsound
    cases h
    rw [State.fetchInstr_byte (s := s.beginTick) he, (hsound _).1]
    simp [fetched, List.range_succ, two]
  | word f =>
    rw [he] at h hsound
    cases h
    rw [State.fetchInstr_word (s := s.beginTick) he, (hsound _).1]
    simp [fetched, List.range_succ, two, three, wordBytes]

/-- An instruction that was decoded is as long as its format (R61). -/
theorem length_encode_of_decode {s : State} {i : Instr} {rest : List Byte}
    (h : decode (s.peekBytes s.pc 3) = .ok (i, rest)) : (encode i).length = i.format.length := by
  have hsound := opcodeEntry_sound (s.peek s.pc)
  simp only [State.peekBytes, decode] at h
  cases he : opcodeEntry (s.peek s.pc) <;> rw [he] at h hsound <;> cases h
  · rw [hsound.1, hsound.2.2]; rfl
  · rw [(hsound _).1, (hsound _).2.2]; rfl
  · rw [(hsound _).1, (hsound _).2.2]; rfl

/-- Settles O51: the fetch leaves `pc` past the instruction's bytes, and the instruction then leaves it alone. -/
theorem pcAdvancesByTheLength : Obligations.PcAdvancesByTheLength := by
  intro s t i rest hd h hm hb
  calc t.pc = pcAfter i (fetched s (encode i).length) := by
        rw [eq_afterInstr_of_step h, fetchInstr_eq_of_decode hd]
        rfl
    _ = s.pc + BitVec.ofNat 16 (encode i).length := pcAfter_of_no_transfer (fetched s (encode i).length) hm hb
    _ = s.pc + BitVec.ofNat 16 i.format.length := by rw [length_encode_of_decode hd]

end Sys2Proof
end

section
/-! PROOFS. A flag that no instruction tests steers nothing: setting it before a tick changes nothing after it but that
flag, and the byte PHP or BRK pushes. -/

namespace Sys2Proof

open Sys2Proof.Machine Sys2Proof.Claims

/-- The flags that an instruction can read: the branch conditions and the carry of sums and rotations. -/
def testedFlags : List Flag := [.c, .z, .v, .n]

@[simp] theorem modeAddr_setFlag (i : Instr) (s : State) (f : Flag) (b : Bool) :
    modeAddr i (s.setFlag f b) = modeAddr i s := rfl

@[simp] theorem modeReads_setFlag (i : Instr) (s : State) (f : Flag) (b : Bool) :
    modeReads i (s.setFlag f b) = modeReads i s := rfl

@[simp] theorem operandValue_setFlag (i : Instr) (s : State) (f : Flag) (b : Bool) :
    operandValue i (s.setFlag f b) = operandValue i s := rfl

@[simp] theorem operandReads_setFlag (i : Instr) (s : State) (f : Flag) (b : Bool) :
    operandReads i (s.setFlag f b) = operandReads i s := rfl

@[simp] theorem xAfter_setFlag (i : Instr) (s : State) (f : Flag) (b : Bool) :
    xAfter i (s.setFlag f b) = xAfter i s := rfl

@[simp] theorem yAfter_setFlag (i : Instr) (s : State) (f : Flag) (b : Bool) :
    yAfter i (s.setFlag f b) = yAfter i s := rfl

@[simp] theorem spAfter_setFlag (i : Instr) (s : State) (f : Flag) (b : Bool) :
    spAfter i (s.setFlag f b) = spAfter i s := rfl

theorem carry_mem_testedFlags : .c ∈ testedFlags := by decide

/-- A branch tests one of the tested flags (R151 to R158). -/
theorem mem_testedFlags_of_branchTest {m : Mnemonic} {g : Flag} {v : Bool} (h : branchTest m = some (g, v)) :
    g ∈ testedFlags := by
  cases m <;> cases h <;> decide

section
variable {f : Flag} (hf : f ∉ testedFlags)
include hf

theorem flagOf_withFlag_of_tested {g : Flag} (hg : g ∈ testedFlags) (p : Byte) (b : Bool) :
    flagOf (withFlag p f b) g = flagOf p g := by
  rw [flagOf_withFlag, if_neg]
  rintro rfl
  exact hf hg

theorem shiftedOperand_setFlag (i : Instr) (s : State) (b : Bool) :
    shiftedOperand i (s.setFlag f b) = shiftedOperand i s := by
  simp only [shiftedOperand, operandValue_setFlag, State.setFlag_status,
    flagOf_withFlag_of_tested hf carry_mem_testedFlags]

theorem aAfter_setFlag (i : Instr) (s : State) (b : Bool) : aAfter i (s.setFlag f b) = aAfter i s := by
  have hc := flagOf_withFlag_of_tested hf carry_mem_testedFlags
  simp only [aAfter, operandValue_setFlag, shiftedOperand_setFlag hf, State.setFlag_status, State.setFlag_a,
    State.setFlag_x, State.setFlag_y, State.setFlag_sp, State.peek_setFlag, hc]

theorem branchTaken_setFlag (m : Mnemonic) (p : Byte) (b : Bool) :
    branchTaken m (withFlag p f b) = branchTaken m p := by
  simp only [branchTaken]
  cases h : branchTest m with
  | none => rfl
  | some test => simp only [flagOf_withFlag_of_tested hf (mem_testedFlags_of_branchTest h)]

theorem pcAfter_setFlag (i : Instr) (s : State) (b : Bool) : pcAfter i (s.setFlag f b) = pcAfter i s := by
  simp only [pcAfter, modeAddr_setFlag, State.setFlag_status, State.setFlag_pc, State.setFlag_sp, State.peek_setFlag,
    branchTaken_setFlag hf]

theorem countAfter_setFlag (i : Instr) (s : State) (b : Bool) : countAfter i (s.setFlag f b) = countAfter i s := by
  simp only [countAfter, State.setFlag_status, branchTaken_setFlag hf]

/-- Every other flag after an instruction is what it was without the write. -/
theorem flagOf_statusAfter_setFlag (i : Instr) (s : State) (b : Bool) {g : Flag} (hg : g ≠ f) :
    flagOf (statusAfter i (s.setFlag f b)) g = flagOf (statusAfter i s) g := by
  have hc := fun p => flagOf_withFlag_of_tested hf carry_mem_testedFlags p b
  simp only [statusAfter, aAfter_setFlag hf, xAfter_setFlag, yAfter_setFlag, shiftedOperand_setFlag hf,
    operandValue_setFlag, State.setFlag_status, State.setFlag_a, State.setFlag_x, State.setFlag_y, State.setFlag_sp,
    State.peek_setFlag]
  cases i.mnemonic <;>
    simp [hg, hc, shiftStatus, bitStatus, adcStatus, sbcStatus, compareStatus]

/-- The events an instruction emits: the stack, which the pushed status goes to, emits none. -/
theorem flatMap_eventsOf_dataAccesses_setFlag (i : Instr) (s : State) (b : Bool) (bus : BusInstance) :
    (dataAccesses i (s.setFlag f b)).flatMap (eventsOf bus) = (dataAccesses i s).flatMap (eventsOf bus) := by
  have hc := fun p => flagOf_withFlag_of_tested hf carry_mem_testedFlags p b
  simp only [dataAccesses, dataAccesses.shiftWrite]
  cases i.mnemonic <;> simp [eventsOf, hc]

end

/-- The pushed status has B set whatever the live B is (R120, R167). -/
theorem withFlag_b_or_pushed (p : Byte) (b : Bool) : withFlag p .b b ||| 0x30#8 = p ||| 0x30#8 :=
  status_ext (p := pushedStatus (withFlag p .b b)) (q := pushedStatus p) fun f => by
    cases f <;> simp

/-- No access shows the live B. -/
theorem dataAccesses_setFlag_b (i : Instr) (s : State) (b : Bool) :
    dataAccesses i (s.setFlag .b b) = dataAccesses i s := by
  have hc := fun p => flagOf_withFlag_of_tested (by decide : Flag.b ∉ testedFlags) carry_mem_testedFlags p b
  simp only [dataAccesses, dataAccesses.shiftWrite, operandReads_setFlag, modeReads_setFlag, modeAddr_setFlag,
    operandValue_setFlag, State.setFlag_status, withFlag_b_or_pushed, hc]
  rfl

/-- The fetch neither reads nor writes the status. -/
theorem fetchInstr_setFlag (s : State) (f : Flag) (b : Bool) :
    (s.setFlag f b).fetchInstr = (s.fetchInstr.1, s.fetchInstr.2.setFlag f b) := by
  cases h : opcodeEntry (s.peek s.pc) with
  | plain i => rw [State.fetchInstr_plain h, State.fetchInstr_plain (s := s.setFlag f b) h]; rfl
  | byte g => rw [State.fetchInstr_byte h, State.fetchInstr_byte (s := s.setFlag f b) h]; rfl
  | word g => rw [State.fetchInstr_word h, State.fetchInstr_word (s := s.setFlag f b) h]; rfl

/-- Settles O53: field by field of the state after the instruction, for a flag that is not tested. -/
theorem interruptAndDecimalFlagsSteerNothing : Obligations.InterruptAndDecimalFlagsSteerNothing := by
  intro i s t f b hf h
  have hu : f ∉ testedFlags := by rcases hf with rfl | rfl <;> decide
  cases eq_afterInstr_of_exec h
  refine ⟨afterInstr i (s.setFlag f b), exec_eq_afterInstr _ _, pcAfter_setFlag hu i s b, rfl, aAfter_setFlag hu i s b,
    rfl, rfl, congrArg some (countAfter_setFlag hu i s b), ?_, fun g hg => flagOf_statusAfter_setFlag hu i s b hg⟩
  exact congrArg (s.events ++ ·) (flatMap_eventsOf_dataAccesses_setFlag hu i s b s.bus)

/-- Settles O52: the fetch keeps the difference in B, and so does the instruction, whose accesses do not show B. -/
theorem liveBreakFlagIsNeverRead : Obligations.LiveBreakFlagIsNeverRead := by
  intro s t b h
  have hu : Flag.b ∉ testedFlags := by decide
  obtain ⟨i, r, hr⟩ : ∃ i r, s.beginTick.fetchInstr = (i, r) := ⟨_, _, rfl⟩
  have hfetch : (s.setFlag .b b).beginTick.fetchInstr = (i, r.setFlag .b b) := by
    rw [show (s.setFlag .b b).beginTick = s.beginTick.setFlag .b b from rfl, fetchInstr_setFlag, hr]
  have ht := eq_afterInstr_of_step h
  rw [hr] at ht
  refine ⟨afterInstr i (r.setFlag .b b), by rw [step_eq_afterInstr, hfetch], ?_, fun g hg => ?_⟩
  · simp [ht, afterInstr, pcAfter_setFlag hu, aAfter_setFlag hu, countAfter_setFlag hu, dataAccesses_setFlag_b]
  · rw [ht]
    exact flagOf_statusAfter_setFlag hu i r b hg

end Sys2Proof
end

section
/-! PROOFS. The memory behind the two buses (`20_memory.md`): what a read returns on each, what a write changes, and
that no tick changes the cartridge. -/

namespace Sys2Proof.Machine

/-- `FlatBus` reads RAM at every address (R58). -/
theorem State.peek_of_flat {s : State} (h : s.bus = .flat) (addr : Addr) : s.peek addr = s.ram.read addr.toNat := by
  simp only [State.peek, h]

/-- The platform bus reads RAM below the split (R37, R38). -/
theorem State.peek_of_lt_split {s : State} {m : Mapper} (h : s.bus = .mapped m) {addr : Addr}
    (ha : addr < Config.busSplit) : s.peek addr = s.ram.read addr.toNat := by
  simp only [State.peek, h, if_pos ha]

/-- The platform bus reads the mapper from the split on (R37, R38). -/
theorem State.peek_of_split_le {s : State} {m : Mapper} (h : s.bus = .mapped m) {addr : Addr}
    (ha : Config.busSplit ≤ addr) : s.peek addr = m.prgRead s.prg (prgOffset addr) := by
  simp only [State.peek, h, if_neg (BitVec.not_lt.mpr ha)]

/-- With one bank, offsets one bank apart read the same byte (R43). -/
theorem prgRead_one_mirrors (prg : Memory) (offset : Addr) :
    (Mapper.nrom .one).prgRead prg (offset - 0x4000#16) = (Mapper.nrom .one).prgRead prg offset := by
  have low_bits : ∀ w : Addr, (w &&& 0x3FFF#16).toNat = w.toNat % 2 ^ 14 := fun w => by
    rw [BitVec.toNat_and]
    exact Nat.and_two_pow_sub_one_eq_mod w.toNat 14
  have same_index : ((offset - 0x4000#16) &&& 0x3FFF#16).toNat = (offset &&& 0x3FFF#16).toNat := by
    simp only [low_bits]
    bv_omega
  exact congrArg prg.read same_index

theorem prgOffset_sub (addr d : Addr) : prgOffset (addr - d) = prgOffset addr - d :=
  sub_right_comm addr d Config.busSplit

/-- A supported mapper id and a known bank count boot the machine on that bus (R42, R190). -/
theorem boot_of_banks {bytes : List Byte} {banks : PrgBanks} (h : prgBanksOf bytes.length = some banks)
    (ram0 : Memory) :
    State.boot Config.nromMapperId bytes ram0 =
      .ok (State.powerUp (.mapped (.nrom banks)) (Memory.ofBytes bytes) ram0) := by
  rw [State.boot, if_pos rfl, h]

/-- An image that is neither one bank nor two long is refused (R44). -/
theorem boot_of_no_banks {bytes : List Byte} (h : prgBanksOf bytes.length = none) (ram0 : Memory) :
    State.boot Config.nromMapperId bytes ram0 = .error (.unsupportedBankCount bytes.length) := by
  rw [State.boot, if_pos rfl, h]

end Sys2Proof.Machine

namespace Sys2Proof

open Sys2Proof.Machine Sys2Proof.Claims

/-- Settles O12: a tick keeps the PRG image and the bus, and a read of the mapper range depends on nothing else. -/
theorem prgIsConstant : Obligations.PrgIsConstant := by
  intro s t h
  have hacts := tickActsOnlyThroughItsAccesses s t h
  have hprg : t.prg = s.prg := hacts.prg
  have hbus : t.bus = s.bus := hacts.bus
  refine ⟨hprg, hbus, fun hflat addr ha => ?_⟩
  cases hs : s.bus with
  | flat => exact absurd hs hflat
  | mapped m => rw [State.peek_of_split_le (hbus.trans hs) ha, State.peek_of_split_le hs ha, hprg]

/-- Settles O13: a read on either side of the split, and the mirror of the one bank. -/
theorem busReadIsMultiplexed : Obligations.BusReadIsMultiplexed := by
  intro s addr banks hbus
  refine ⟨rfl, fun ha => State.peek_of_lt_split hbus ha, fun ha hone => ?_, fun ha htwo => ?_, fun ha hone => ?_⟩
  · subst hone
    exact State.peek_of_split_le hbus ha
  · subst htwo
    exact State.peek_of_split_le hbus ha
  · subst hone
    have high : 0x8000#16 ≤ addr := by bv_omega
    have low : 0x8000#16 ≤ addr - 0x4000#16 := by bv_omega
    rw [State.peek_of_split_le hbus high, State.peek_of_split_le hbus low, prgOffset_sub, prgRead_one_mirrors]

/-- A write to the mapper range does not reach RAM (R39, R45). -/
theorem writable_of_split_le (m : Mapper) {addr : Addr} (ha : Config.busSplit ≤ addr) :
    writable (.mapped m) addr = false :=
  decide_eq_false (BitVec.not_lt.mpr ha)

/-- A write that reaches RAM emits no event (R45). -/
theorem events_memWrite_of_writable {s : State} {addr : Addr} (v : Byte) (hw : writable s.bus addr = true) :
    (s.memWrite addr v).events = s.events := by
  simp [State.memWrite_eq, eventsOf, hw]

/-- A write that does not reach RAM emits one event (R45). -/
theorem events_memWrite_of_not_writable {s : State} {addr : Addr} (v : Byte) (hw : writable s.bus addr = false) :
    (s.memWrite addr v).events = s.events ++ [.illegalPrgWrite (prgOffset addr) v] := by
  simp [State.memWrite_eq, eventsOf, hw]

/-- Settles O14: a write reaches RAM below the split and not from it on, with the frame of `State.memWrite_eq`. -/
theorem busWriteIsMultiplexed : Obligations.BusWriteIsMultiplexed := by
  intro s addr v m hbus
  refine ⟨fun ha => ?_, fun ha => ?_, ?_⟩
  · have hw : writable s.bus addr = true := hbus ▸ decide_eq_true ha
    refine ⟨?_, events_memWrite_of_writable v hw, fun b hb => ?_⟩
    · simp [hw]
    · simp [hb]
  · have hw : writable s.bus addr = false := hbus ▸ writable_of_split_le m ha
    refine ⟨fun b => ?_, events_memWrite_of_not_writable v hw⟩
    simp [hw]
  · rw [State.memWrite_eq]

/-- Settles O15: on `FlatBus` every write reaches RAM. -/
theorem flatBusIsPlainRam : Obligations.FlatBusIsPlainRam := by
  intro s addr b v hbus
  have hw : writable s.bus addr = true := by rw [hbus]; rfl
  refine ⟨State.peek_of_flat hbus addr, ?_, events_memWrite_of_writable v hw⟩
  simp [hw]

/-- Settles O55: the test of the mapper id, and the bank count of each image length. -/
theorem bootRefusesWhatHasNoBus : Obligations.BootRefusesWhatHasNoBus := by
  intro id bytes ram0
  refine ⟨fun hid => if_neg hid, fun hid hlen => ?_, fun hid hlen => ?_, fun hid hone htwo => ?_⟩
  · subst hid
    exact boot_of_banks (by rw [hlen]; rfl) ram0
  · subst hid
    exact boot_of_banks (by rw [hlen]; rfl) ram0
  · subst hid
    have none_of : prgBanksOf bytes.length = none := (if_neg hone).trans (if_neg htwo)
    exact boot_of_no_banks none_of ram0

end Sys2Proof
end

section
/-! PROOFS. Decode and encode agree: what an entry of the opcode table reads is said once, and both directions of the
round trip follow from it. -/

namespace Sys2Proof

open Sys2Proof.Machine

/-- The operand bytes an opcode's entry takes, and the instruction it makes of them (R61 to R63). -/
inductive OpcodeEntry.Reads : OpcodeEntry → List Byte → Instr → Prop where
  | plain (i : Instr) : Reads (.plain i) [] i
  | byte (f : Byte → Instr) (b : Byte) : Reads (.byte f) [b] (f b)
  | word (f : Addr → Instr) (w : Addr) : Reads (.word f) (wordBytes w) (f w)

/-- Two bytes are the operand bytes of the word they make, low byte first (R47, R63). -/
@[simp] theorem wordBytes_wordOf (hi lo : Byte) : wordBytes (wordOf hi lo) = [lo, hi] := by
  simp [wordBytes]

/-- What decoding after the opcode byte answers: the instruction its entry reads, and the bytes after the operand. -/
theorem decodeOperands_eq_ok_iff {op : Byte} {e : OpcodeEntry} {bytes rest : List Byte} {i : Instr} :
    decodeOperands op e bytes = .ok (i, rest) ↔ ∃ operands, e.Reads operands i ∧ operands ++ rest = bytes := by
  constructor
  · intro h
    match e, bytes, h with
    | .plain i, _, rfl => exact ⟨[], .plain i, rfl⟩
    | .byte f, b :: _, rfl => exact ⟨[b], .byte f b, rfl⟩
    | .word f, lo :: hi :: _, rfl => exact ⟨_, .word f (wordOf hi lo), by simp⟩
  · rintro ⟨operands, hreads, rfl⟩
    cases hreads with
    | plain => rfl
    | byte => rfl
    | word f w => simp [wordBytes, decodeOperands]

/-- The table gives an instruction back from its opcode and operand bytes (R65, R66). -/
theorem opcodeEntry_reads {i : Instr} (h : i.wellFormed = true) :
    (opcodeEntry i.opcode).Reads i.operandBytes i := by
  cases i with
  | unassigned op =>
    have hentry : opcodeEntry op = .plain (.unassigned op) := Laws.EncodesAsItsFormat.entry_of_unassigned op h
    simp only [Instr.opcode, Instr.operandBytes, hentry]
    exact .plain _
  | _ => simp [Instr.opcode, Instr.operandBytes, OpcodeEntry.Reads.plain, OpcodeEntry.Reads.byte,
      OpcodeEntry.Reads.word]

/-- What a sound entry reads is well formed and encodes to the opcode byte and the operand bytes (R61, R62). -/
theorem OpcodeEntry.Reads.encode_eq {op : Byte} {e : OpcodeEntry} {operands : List Byte} {i : Instr}
    (hreads : e.Reads operands i) (hsound : e.soundFor op) :
    i.wellFormed = true ∧ encode i = op :: operands ∧ i.format.length = operands.length + 1 := by
  cases hreads with
  | plain =>
    obtain ⟨hencode, hwf, hlength⟩ := hsound
    exact ⟨hwf, hencode, hlength⟩
  | byte f b =>
    obtain ⟨hencode, hwf, hlength⟩ := hsound b
    exact ⟨hwf, hencode, hlength⟩
  | word f w =>
    obtain ⟨hencode, hwf, hlength⟩ := hsound w
    exact ⟨hwf, hencode, hlength⟩

/-- Settles O4: the entry of the instruction's opcode byte reads its operand bytes and leaves the rest. -/
theorem decodeOfEncodeIsTheInstruction : Obligations.DecodeOfEncodeIsTheInstruction := by
  intro i rest h
  exact decodeOperands_eq_ok_iff.mpr ⟨i.operandBytes, opcodeEntry_reads h, rfl⟩

/-- Settles O5: the entry of the first byte is sound for it, so what it reads encodes to that byte and the operand. -/
theorem encodeOfDecodeIsTheBytes : Obligations.EncodeOfDecodeIsTheBytes := by
  intro bytes rest i h
  cases bytes with
  | nil => cases h
  | cons op tail =>
    obtain ⟨operands, hreads, rfl⟩ := decodeOperands_eq_ok_iff.mp h
    obtain ⟨hwf, hencode, hlength⟩ := hreads.encode_eq (opcodeEntry_sound op)
    exact ⟨hwf, by rw [hencode]; rfl, by rw [hencode, hlength]; rfl⟩

/-- Settles O6: each word evaluated by the decoder. -/
theorem sampleWordsDecodeAsTheSpecSays : Obligations.SampleWordsDecodeAsTheSpecSays :=
  ⟨rfl, rfl, rfl, rfl, rfl, rfl, rfl, rfl, rfl, rfl, rfl⟩

end Sys2Proof
end

section
/-! PROOFS. The engine (`40_engine.md`): a tick is `exec` of the instruction at `pc`, it completes with a count and the
listed accesses, and a status bit changes only by an instruction that writes it. -/

namespace Sys2Proof

open Sys2Proof.Machine Sys2Proof.Claims

/-- Settles O38: the bits of the status by `flagOf_withZN`, and no other field is written. -/
theorem setZNSetsZeroAndNegativeOnly : Obligations.SetZNSetsZeroAndNegativeOnly := by
  intro s v
  refine ⟨?_, ?_, fun f hz hn => ?_, rfl⟩
  · simp
  · simp
  · simp [hz, hn]

/-- Settles O7: the fetch reads exactly the bytes that decode to the instruction. -/
theorem tickRunsTheDecodedInstruction : Obligations.TickRunsTheDecodedInstruction := by
  intro s i rest hd
  simp only [step, fetchInstr_eq_of_decode hd]

/-- Settles O8: the state after the fetched instruction holds its count. -/
theorem noTickFails : Obligations.NoTickFails :=
  fun s => ⟨_, _, step_eq_afterInstr s, rfl⟩

/-- Settles O11: the record of the fetch grows by the accesses of the decoded instruction. -/
theorem tickMakesExactlyTheListedAccesses : Obligations.TickMakesExactlyTheListedAccesses := by
  intro s t i rest hd h
  rw [tickRunsTheDecodedInstruction s i rest hd] at h
  rw [eq_afterInstr_of_exec h]
  exact (followsBy_afterInstr i (fetched s (encode i).length)).accesses

/-- Settles O37: the table's entry for the byte is the unassigned instruction, fetched by one read, and its meaning
only returns the count. -/
theorem unassignedByteOnlyAdvancesPc : Obligations.UnassignedByteOnlyAdvancesPc := by
  refine ⟨fun s h => ?_, exec_unassigned, fun op s => rfl⟩
  have hentry := Laws.EncodesAsItsFormat.entry_of_unassigned (s.peek s.pc) h
  simp only [step, State.fetchInstr_plain (s := s.beginTick) hentry]
  rfl

/-- A status bit that the rule of an instruction does not name as written stands (R18 to R24). -/
theorem flagOf_statusAfter_of_not_writer {i : Instr} {f : Flag} (s : State) (h : i.mnemonic ∉ flagWriters f) :
    flagOf (statusAfter i s) f = flagOf s.status f := by
  have hne : ∀ g, i.mnemonic ∈ flagWriters g → f ≠ g := by
    rintro g hg rfl
    exact h hg
  simp only [statusAfter]
  cases hm : i.mnemonic <;> rewrite [hm] at hne
  case plp | rti => exact absurd rfl (hne f (by cases f <;> decide))
  case brk => simp [hne .b (by decide), hne .i (by decide)]
  case clc | sec => simp [hne .c (by decide)]
  case cld | sed => simp [hne .d (by decide)]
  case cli | sei => simp [hne .i (by decide)]
  case clv => simp [hne .v (by decide)]
  case bit => simp [bitStatus, hne .z (by decide), hne .n (by decide), hne .v (by decide)]
  case adc | sbc =>
    simp [adcStatus, sbcStatus, hne .c (by decide), hne .z (by decide), hne .n (by decide), hne .v (by decide)]
  case cmp | cpx | cpy | asl | lsr | rol | ror =>
    simp [compareStatus, shiftStatus, hne .c (by decide), hne .z (by decide), hne .n (by decide)]
  case lda | ldx | ldy | tax | tay | txa | tya | tsx | pla | and | ora | eor | inc | dec | inx | iny | dex | dey =>
    simp [hne .z (by decide), hne .n (by decide)]
  -- The rest leave the status as it is.
  all_goals rfl

/-- Settles O49: the status after the instruction, bit by bit. -/
theorem flagsHaveOnlyTheirWriters : Obligations.FlagsHaveOnlyTheirWriters := by
  intro i s t f h hf
  rw [eq_afterInstr_of_exec h]
  exact flagOf_statusAfter_of_not_writer s hf

/-- The fetched instruction is what the entry of the byte at `pc` reads (R64, R76). -/
theorem fetchInstr_reads (s : State) :
    ∃ operands, (opcodeEntry (s.peek s.pc)).Reads operands s.fetchInstr.1 := by
  cases he : opcodeEntry (s.peek s.pc) with
  | plain i => exact ⟨_, by rw [State.fetchInstr_plain he]; exact .plain i⟩
  | byte f => exact ⟨_, by rw [State.fetchInstr_byte he]; exact .byte f _⟩
  | word f => exact ⟨_, by rw [State.fetchInstr_word he]; exact .word f _⟩

/-- The fetched instruction is well formed and begins with the byte at `pc` (R61, R65, R66). -/
theorem fetchInstr_opcode (s : State) :
    s.fetchInstr.1.wellFormed = true ∧ s.fetchInstr.1.opcode = s.peek s.pc := by
  obtain ⟨operands, hreads⟩ := fetchInstr_reads s
  obtain ⟨hwf, hencode, -⟩ := hreads.encode_eq (opcodeEntry_sound (s.peek s.pc))
  exact ⟨hwf, List.head_eq_of_cons_eq hencode⟩

/-- The fetch neither reads nor writes the returned count. -/
theorem fetchInstr_cycles (s : State) (c : Option Byte) :
    State.fetchInstr { s with cycles := c } = (s.fetchInstr.1, { s.fetchInstr.2 with cycles := c }) := by
  cases h : opcodeEntry (s.peek s.pc) with
  | plain i => rw [State.fetchInstr_plain h, State.fetchInstr_plain (s := { s with cycles := c }) h]; rfl
  | byte f => rw [State.fetchInstr_byte h, State.fetchInstr_byte (s := { s with cycles := c }) h]; rfl
  | word f => rw [State.fetchInstr_word h, State.fetchInstr_word (s := { s with cycles := c }) h]; rfl

/-- No tick reads the count of the tick before (R96). -/
theorem step_cycles (s : State) (c : Option Byte) : step { s with cycles := c } = step s := by
  have hfetch := fetchInstr_cycles s.beginTick c
  rw [step_eq_afterInstr, step_eq_afterInstr]
  rw [show State.beginTick { s with cycles := c } = { s.beginTick with cycles := c } from rfl, hfetch]
  rfl

theorem countAfter_of_unassigned {i : Instr} (s : State) (h : i.mnemonic = .unassigned) : countAfter i s = 0#8 := by
  simp only [countAfter, h]

theorem countAfter_of_assigned {i : Instr} (s : State) (h : i.mnemonic ≠ .unassigned) :
    countAfter i s = baseCycles i.opcode + if branchTaken i.mnemonic s.status then 1#8 else 0#8 := by
  simp only [countAfter]
  split <;> simp

/-- The instructions that test a condition are those of the relative mode (R91, R150). -/
theorem format_of_branchTest {i : Instr} (h : (branchTest i.mnemonic).isSome = true) : i.format = .rel := by
  cases i <;> simp_all [Instr.mnemonic, Instr.format, branchTest]

/-- A branch returns 3 cycles if it is taken and 2 if not (R150, R197, R198). -/
theorem countAfter_of_branch {i : Instr} (s : State) (h : (branchTest i.mnemonic).isSome = true) :
    countAfter i s = if branchTaken i.mnemonic s.status then 3#8 else 2#8 := by
  have hassigned : i.mnemonic ≠ .unassigned := fun hm => by rw [hm] at h; cases h
  rw [countAfter_of_assigned s hassigned, baseCycles_branch (format_of_branchTest h)]
  split <;> rfl

/-- Settles O9: the count of the fetched instruction, whose mnemonic is the one the byte at `pc` decodes to. -/
theorem tickReturnsTheCycleCount : Obligations.TickReturnsTheCycleCount := by
  intro s t h
  obtain ⟨i, r, hfetch⟩ : ∃ i r, s.beginTick.fetchInstr = (i, r) := ⟨_, _, rfl⟩
  have hopcode := fetchInstr_opcode s.beginTick
  have hstatus := fetchInstr_status s.beginTick
  have ht := eq_afterInstr_of_step h
  rw [hfetch] at hopcode hstatus ht
  obtain ⟨hwf, hop⟩ : i.wellFormed = true ∧ i.opcode = s.peek s.pc := hopcode
  have hp : r.status = s.status := hstatus
  have hcount : t.cycles = some (countAfter i r) := congrArg State.cycles ht
  rw [← hop, isUnassigned_opcode hwf, decodeOpcode_opcode hwf, hcount]
  refine ⟨fun hm => ?_, fun hm => ?_, fun hm => ?_, fun c => (step_cycles s c).trans h⟩
  · rw [countAfter_of_unassigned r (beq_iff_eq.mp hm)]
  · rw [countAfter_of_assigned r (beq_eq_false_iff_ne.mp hm), hp]
  · rw [countAfter_of_branch r hm, hp]

end Sys2Proof
end

section
/-! PROOFS. Loads, stores and register transfers (`41_load_store_transfer.md`): each mnemonic is one shared meaning, and
its encodings are read off the opcode table. -/

namespace Sys2Proof

open Sys2Proof.Machine Sys2Proof.Claims

/-! ### The encodings of a mnemonic -/

/-- Every instruction of an assigned mnemonic is well formed (R65, R66). -/
theorem Instr.wellFormed_of_assigned {i : Instr} (h : i.mnemonic ≠ .unassigned) : i.wellFormed = true := by
  cases i with
  | unassigned op => exact absurd rfl h
  | _ => rfl

/-- A well-formed instruction is as long as its format (R61, R62). -/
theorem length_encode {i : Instr} (h : i.wellFormed = true) : (encode i).length = i.format.length := by
  obtain ⟨-, -, hlength⟩ := encodeOfDecodeIsTheBytes _ _ i (decodeOfEncodeIsTheInstruction i [] h)
  exact hlength

/-- What the opcode table and `CYCLES` say of an opcode byte: its format, the length in bytes and the base count. -/
def opcodeRow (op : Byte) : Byte × Format × Nat × Byte :=
  (op, (decodeOpcode op).2, (decodeOpcode op).2.length, baseCycles op)

theorem encodingRow_eq {i : Instr} (h : i.wellFormed = true) :
    (i.opcode, i.format, (encode i).length, baseCycles i.opcode) = opcodeRow i.opcode := by
  simp only [opcodeRow, decodeOpcode_opcode h, length_encode h]

/-- The opcode bytes that decode to a mnemonic. -/
def opcodesOf (m : Mnemonic) : List Byte :=
  ((List.range 256).map (BitVec.ofNat 8)).filter fun op => (decodeOpcode op).1 == m

theorem mem_opcodesOf {m : Mnemonic} {op : Byte} : op ∈ opcodesOf m ↔ (decodeOpcode op).1 = m := by
  have hop : op ∈ (List.range 256).map (BitVec.ofNat 8) :=
    List.mem_map.mpr ⟨op.toNat, List.mem_range.mpr op.isLt, by simp⟩
  simp [opcodesOf, hop]

/-- A list that holds the row of each opcode byte of an assigned mnemonic, and no other row, gives its encodings. -/
theorem hasEncodings_of_rows {m : Mnemonic} {rows : List (Byte × Format × Nat × Byte)} (hm : m ≠ .unassigned)
    (hrows : ((opcodesOf m).map opcodeRow).Perm rows) : HasEncodings m rows := by
  refine ⟨fun i hi => ?_, fun r hr => ?_⟩
  · have hwf : i.wellFormed = true := Instr.wellFormed_of_assigned (hi ▸ hm)
    have hop : i.opcode ∈ opcodesOf m := mem_opcodesOf.mpr (by rw [decodeOpcode_opcode hwf, hi])
    rw [encodingRow_eq hwf]
    exact hrows.mem_iff.mp (List.mem_map_of_mem hop)
  · obtain ⟨op, hop, rfl⟩ := List.mem_map.mp (hrows.mem_iff.mpr hr)
    exact Prod.ext (mem_opcodesOf.mp hop) rfl

/-! ### What each mnemonic does -/

/-- A mnemonic whose meaning is `loadInto` loads that register (R101 to R103). -/
theorem loads_of_loadInto {m : Mnemonic} (r : Reg) (hm : m ∉ [.jmp, .asl, .lsr, .rol, .ror])
    (hmeaning : ∀ i : Instr, i.mnemonic = m → i.meaning = loadInto r i.valueForm i.opcode) :
    loads m fun t v => t.setReg r v := by
  intro i s h
  have hind : i.format ≠ .ind := Instr.format_ne_ind (by rw [h]; simp_all)
  have hacc : i.format ≠ .acc := Instr.format_ne_acc (by rw [h]; simp_all)
  rw [exec_eq_meaning, hmeaning i h, loadInto_eq, formValue_valueForm s hind hacc, valueReads_valueForm s hind hacc]
  cases r <;> rfl

/-- A mnemonic whose meaning is `storeFrom` stores that register (R104 to R106). -/
theorem stores_of_storeFrom {m : Mnemonic} (r : Reg) (hm : m ≠ .jmp)
    (hmeaning : ∀ i : Instr, i.mnemonic = m → i.meaning = storeFrom r i.addrForm i.opcode) :
    stores m fun s => s.getReg r := by
  intro i s h
  have hind : i.format ≠ .ind := Instr.format_ne_ind (h ▸ hm)
  rw [exec_eq_meaning, hmeaning i h, storeFrom_eq, formAddr_addrForm s hind, formReads_addrForm s hind,
    List.append_assoc]
  rfl

/-- An instruction that makes no access of its own leaves the record as it is (R94). -/
@[simp] theorem after_nil (i : Instr) (s : State) : after i s [] = s.retire i.opcode := by
  simp [after, State.retire, State.returning]

/-- An instruction whose meaning is `transfer` copies one register to another, with Z and N (R107 to R110). -/
theorem exec_transfer {i : Instr} (r d : Reg) (s : State) (h : i.meaning = transfer r d i.opcode) :
    exec i s = .next { (after i s []).setReg d (s.getReg r) with status := withZN s.status (s.getReg r) } := by
  rw [exec_eq_meaning, h, transfer_eq, after_nil]
  cases d <;> rfl

/-- Settles O16: each load by `loads_of_loadInto`, its encodings by the opcode table. -/
theorem loadsTakeTheOperand : Obligations.LoadsTakeTheOperand := by
  refine ⟨loads_of_loadInto .a (by decide) fun i h => by simp only [Instr.meaning, h],
    loads_of_loadInto .x (by decide) fun i h => by simp only [Instr.meaning, h],
    loads_of_loadInto .y (by decide) fun i h => by simp only [Instr.meaning, h], ?_, ?_, ?_⟩
  all_goals exact hasEncodings_of_rows (by decide) (by decide)

/-- Settles O17: each store by `stores_of_storeFrom`, its encodings by the opcode table. -/
theorem storesWriteTheRegister : Obligations.StoresWriteTheRegister := by
  refine ⟨stores_of_storeFrom .a (by decide) fun i h => by simp only [Instr.meaning, h],
    stores_of_storeFrom .x (by decide) fun i h => by simp only [Instr.meaning, h],
    stores_of_storeFrom .y (by decide) fun i h => by simp only [Instr.meaning, h], ?_, ?_, ?_⟩
  all_goals exact hasEncodings_of_rows (by decide) (by decide)

/-- Settles O18: TAX, TAY, TXA and TYA by `exec_transfer`, TSX and TXS by their meanings, the encodings by the opcode
table. -/
theorem transfersCopyTheRegister : Obligations.TransfersCopyTheRegister := by
  refine ⟨fun i s h => exec_transfer .a .x s (by simp only [Instr.meaning, h]),
    fun i s h => exec_transfer .a .y s (by simp only [Instr.meaning, h]),
    fun i s h => exec_transfer .x .a s (by simp only [Instr.meaning, h]),
    fun i s h => exec_transfer .y .a s (by simp only [Instr.meaning, h]), fun i s h => ?tsx, fun i s h => ?txs,
    ?_, ?_, ?_, ?_, ?_, ?_⟩
  case tsx | txs =>
    simp only [exec_eq_meaning, Instr.meaning, h, after_nil]
    rfl
  all_goals exact hasEncodings_of_rows (by decide) (by decide)

end Sys2Proof
end

section
/-! PROOFS. The stack (`42_stack.md`): a push and a pull by the slot they use, the four instructions that push or pull one
byte, and the stack page that no stack access leaves. -/

namespace Sys2Proof

open Sys2Proof.Machine Sys2Proof.Claims

/-- Settles O44: a push and a pull by `State.push_eq` and `State.pull_eq`, and the pull's slot is the push's. -/
theorem pullGivesBackThePush : Obligations.PullGivesBackThePush := by
  intro s v
  have hsp : (s.push v).sp + 1#8 = s.sp := by simp
  refine ⟨?_, rfl, State.peek_push s v, State.push_sp s v, rfl, rfl, fun b => rfl, ?_, hsp⟩
  · rw [State.push_eq, State.memWrite_eq]
    rfl
  · simp only [State.pull_eq, hsp, State.peek_push, if_true]

/-! ### PHA, PHP, PLA and PLP -/

/-- A push, ended by the base count, is a store in the slot at `sp` and one access (R117, R119, R120). -/
theorem push_retire_eq (i : Instr) (s : State) (v : Byte) :
    (s.push v).retire i.opcode =
      { (after i s [.write (stackSlot s.sp) v]).store (stackSlot s.sp) v with sp := s.sp - 1#8 } := by
  rw [State.push_eq, State.store_eq]
  rfl

/-- Settles O19: each is its meaning's push by `push_retire_eq`, its encoding by the opcode table. -/
theorem pushesWriteTheStackSlot : Obligations.PushesWriteTheStackSlot := by
  refine ⟨fun i s h => ?pha, fun i s h => ?php, ?_, ?_⟩
  case pha | php =>
    simp only [exec_eq_meaning, Instr.meaning, h]
    exact congrArg _ (push_retire_eq i s _)
  all_goals exact hasEncodings_of_rows (by decide) (by decide)

/-- Settles O20: each is its meaning's pull by `State.pull_eq`, its encoding by the opcode table. -/
theorem pullsReadTheStackSlot : Obligations.PullsReadTheStackSlot := by
  refine ⟨fun i s h => ?pla, fun i s h => ?plp, ?_, ?_⟩
  case pla | plp =>
    simp only [exec_eq_meaning, Instr.meaning, h, State.pull_eq]
    rfl
  all_goals exact hasEncodings_of_rows (by decide) (by decide)

/-! ### The stack page -/

/-- Every stack slot lies in 0x0100-0x01FF (R113). -/
theorem stackSlot_mem_stackPage (sp : Byte) : 0x0100#16 ≤ stackSlot sp ∧ stackSlot sp ≤ 0x01FF#16 := by
  have hsp := sp.isLt
  simp only [BitVec.le_def, stackSlot_toNat, BitVec.toNat_ofNat]
  omega

/-- The accesses of a stack instruction are of stack slots, but for BRK's two reads of the vector (R94, R113). -/
theorem stack_access_cases {i : Instr} {s : State} {e : Access}
    (h : i.mnemonic ∈ [.pha, .php, .pla, .plp, .jsr, .rts, .rti, .brk]) (he : e ∈ dataAccesses i s) :
    (∃ (sp v : Byte), e = .read (stackSlot sp) v ∨ e = .write (stackSlot sp) v) ∨
      (i.mnemonic = .brk ∧ ∃ v : Byte, e = .read 0xFFFE#16 v ∨ e = .read 0xFFFF#16 v) := by
  simp only [dataAccesses] at he
  cases hm : i.mnemonic <;> rw [hm] at h he <;> simp only [List.mem_cons, List.not_mem_nil, or_false] at he
  case pha | php | jsr =>
    rcases he with rfl | rfl
    all_goals exact .inl ⟨_, _, .inr rfl⟩
  case pla | plp | rts | rti =>
    rcases he with rfl | rfl | rfl
    all_goals exact .inl ⟨_, _, .inl rfl⟩
  case brk =>
    rcases he with rfl | rfl | rfl | rfl | rfl
    exacts [.inl ⟨_, _, .inr rfl⟩, .inl ⟨_, _, .inr rfl⟩, .inl ⟨_, _, .inr rfl⟩, .inr ⟨rfl, _, .inl rfl⟩,
      .inr ⟨rfl, _, .inr rfl⟩]
  all_goals exact absurd h (by decide)

/-- Settles O43: the record grows by the instruction's accesses, and the slots of these lie in the stack page. -/
theorem stackAccessesStayInTheStackPage : Obligations.StackAccessesStayInTheStackPage := by
  intro i s t hi h e he
  rw [eq_afterInstr_of_exec h, (followsBy_afterInstr i s).accesses, List.drop_left] at he
  refine (stack_access_cases hi he).imp_left ?_
  rintro ⟨sp, v, hslot⟩
  exact ⟨stackSlot sp, v, hslot, stackSlot_mem_stackPage sp⟩

/-! ### Runs of pushes -/

/-- A run of PHA takes its length from `sp`, modulo 256 (R115). -/
theorem sp_of_pha_run {n : Nat} {run : Nat → State} (h : ∀ k, k < n → exec .pha (run k) = .next (run (k + 1))) :
    (run n).sp = (run 0).sp - BitVec.ofNat 8 n := by
  induction n with
  | zero => simp
  | succ n ih =>
    have hlast : (run (n + 1)).sp = (run n).sp - 1#8 := by
      rw [eq_afterInstr_of_exec (h n (Nat.lt_succ_self n))]
      rfl
    rw [hlast, ih fun k hk => h k (Nat.lt_succ_of_lt hk), BitVec.sub_sub, BitVec.ofNat_add]

/-- Settles O45: the runs by `sp_of_pha_run`, the two wraps by the slot of a push and of a pull. -/
theorem pushesWrapAfter256 : Obligations.PushesWrapAfter256 := by
  refine ⟨fun n run h => ?_, fun s v h => ?_, fun s h => ?_⟩
  · have hsp := sp_of_pha_run h
    refine ⟨hsp, fun hn => ?_, fun hn => ?_⟩
    · rw [hsp, hn, show BitVec.ofNat 8 256 = 0#8 from rfl, BitVec.sub_zero]
    · rw [hsp, hn]
      rfl
  · have hslot : 0x0100#16 = stackSlot s.sp := by rw [h]; rfl
    rw [State.push_sp, State.peek_push, if_pos hslot, h]
    exact ⟨rfl, rfl⟩
  · rw [State.pull_eq, h]
    exact ⟨rfl, rfl⟩

end Sys2Proof
end

section
/-! PROOFS. The logical, arithmetic and compare instructions (`43_alu.md`): they read their operand and change `a` and the
status alone; ADC and SBC are exact; a compare orders two unsigned bytes. -/

namespace Sys2Proof

open Sys2Proof.Machine Sys2Proof.Claims

/-! ### What the ALU mnemonics leave unchanged -/

/-- The mnemonics of the ALU file (R123 to R131). -/
def aluMnemonics : List Mnemonic := [.and, .ora, .eor, .bit, .adc, .sbc, .cmp, .cpx, .cpy]

/-- The accesses of an ALU instruction are the reads of its operand (R94). -/
theorem dataAccesses_of_alu {i : Instr} (s : State) (h : i.mnemonic ∈ aluMnemonics) :
    dataAccesses i s = operandReads i s := by
  simp only [dataAccesses]
  cases hm : i.mnemonic with
  | and | ora | eor | bit | adc | sbc | cmp | cpx | cpy => rfl
  | _ => exact absurd (hm ▸ h) (by decide)

/-- An ALU instruction reads its operand and changes the accumulator, the status and nothing else (R123 to R131). -/
theorem exec_of_alu {i : Instr} (s : State) (h : i.mnemonic ∈ aluMnemonics) :
    exec i s = .next { after i s (operandReads i s) with a := aAfter i s, status := statusAfter i s } := by
  have hnot : ∀ ms : List Mnemonic, (∀ m ∈ aluMnemonics, m ∉ ms) → i.mnemonic ∉ ms := fun _ hms => hms _ h
  have hassigned : i.mnemonic ≠ .unassigned := fun hm => absurd (hm ▸ h) (by decide)
  have hbranch : branchTaken i.mnemonic s.status = false := branchTaken_of_not_branch s.status (hnot _ (by decide))
  have hpc : pcAfter i s = s.pc := pcAfter_of_no_transfer s (hnot _ (by decide)) hbranch
  have hsp : spAfter i s = s.sp := spAfter_of_not_writer s (hnot _ (by decide))
  have hx : xAfter i s = s.x := xAfter_of_not_writer s (hnot _ (by decide))
  have hy : yAfter i s = s.y := yAfter_of_not_writer s (hnot _ (by decide))
  have hcount : countAfter i s = baseCycles i.opcode := by simp [countAfter_of_assigned s hassigned, hbranch]
  simp [exec_eq_afterInstr, afterInstr, after, hpc, hsp, hx, hy, hcount, dataAccesses_of_alu s h]

/-- A compare writes the status alone, from the register its mnemonic names (R129 to R131, R134). -/
theorem exec_of_compare {i : Instr} {s : State} {r : Byte}
    (h : i.mnemonic = .cmp ∧ r = s.a ∨ i.mnemonic = .cpx ∧ r = s.x ∨ i.mnemonic = .cpy ∧ r = s.y) :
    exec i s = .next
      { after i s (operandReads i s) with status := compareStatus s.status r (operandValue i s) } := by
  rcases h with ⟨hm, rfl⟩ | ⟨hm, rfl⟩ | ⟨hm, rfl⟩ <;>
    rw [exec_of_alu s (by rw [hm]; decide)] <;>
    simp only [aAfter, statusAfter, hm] <;>
    rfl

/-! ### The rules of each mnemonic -/

/-- Settles O21: each mnemonic's accumulator and status by `exec_of_alu`, its encodings by the opcode table. -/
theorem logicCombinesIntoA : Obligations.LogicCombinesIntoA := by
  refine ⟨fun i s h => ?_, fun i s h => ?_, fun i s h => ?_, ?_, ?_, ?_⟩
  iterate 3
    rw [exec_of_alu s (by rw [h]; decide)]
    simp only [aAfter, statusAfter, h]
  all_goals exact hasEncodings_of_rows (by decide) (by decide)

@[simp] theorem flagOf_bitStatus (p a v : Byte) (g : Flag) :
    flagOf (bitStatus p a v) g =
      if g = .v then v.getLsbD 6 else if g = .n then v.getLsbD 7 else if g = .z then a &&& v == 0#8 else flagOf p g := by
  simp [bitStatus]

/-- Settles O22: the status is `bitStatus`, read bit by bit. -/
theorem bitTestsMemory : Obligations.BitTestsMemory := by
  refine ⟨fun i s h => ⟨bitStatus s.status s.a (operandValue i s), ?_, ?_, ?_, ?_, fun f hz hn hv => ?_⟩,
    hasEncodings_of_rows (by decide) (by decide)⟩
  · rw [exec_of_alu s (by rw [h]; decide)]
    simp only [aAfter, statusAfter, h]
    rfl
  · simp
  · simp
  · simp
  · simp [hz, hn, hv]

/-- A sum is the same byte before and after its reduction modulo 256 (R132). -/
theorem ofNat_mod_256 (n : Nat) : BitVec.ofNat 8 (n % 256) = BitVec.ofNat 8 n :=
  BitVec.eq_of_toNat_eq (by simp)

/-- Settles O23: `adcResult` and `adcStatus` are the rule's pseudocode. -/
theorem adcFollowsItsPseudocode : Obligations.AdcFollowsItsPseudocode := by
  refine ⟨fun i s h => ?_, hasEncodings_of_rows (by decide) (by decide)⟩
  rw [exec_of_alu s (by rw [h]; decide)]
  simp only [aAfter, statusAfter, h, ofNat_mod_256]
  rfl

/-- Settles O24: `sbcResult` and `sbcStatus` are the rule's pseudocode. -/
theorem sbcFollowsItsPseudocode : Obligations.SbcFollowsItsPseudocode := by
  refine ⟨fun i s h => ?_, hasEncodings_of_rows (by decide) (by decide)⟩
  rw [exec_of_alu s (by rw [h]; decide)]
  simp only [aAfter, statusAfter, h, ofNat_mod_256]
  rfl

/-- Settles O25: each compare by `exec_of_compare`, its encodings by the opcode table. -/
theorem comparesSetCarryAndZN : Obligations.ComparesSetCarryAndZN := by
  refine ⟨fun i s h => exec_of_compare (.inl ⟨h, rfl⟩), fun i s h => exec_of_compare (.inr (.inl ⟨h, rfl⟩)),
    fun i s h => exec_of_compare (.inr (.inr ⟨h, rfl⟩)), ?_, ?_, ?_⟩
  all_goals exact hasEncodings_of_rows (by decide) (by decide)

/-! ### The exact sum and difference -/

/-- The carry out is bit 8 of ADC's exact sum, the result the low byte (R127, R132). -/
theorem adcCarry_adcResult (a v : Byte) (c : Bool) :
    256 * (adcCarry a v c).toNat + (adcResult a v c).toNat = a.toNat + v.toNat + c.toNat := by
  have ha := a.isLt
  have hv := v.isLt
  have hc := c.toNat_le
  simp only [adcCarry, adcResult, adcSum, BitVec.toNat_ofNat]
  by_cases hsum : 255 < a.toNat + v.toNat + c.toNat
  · simp only [hsum, decide_true, Bool.toNat_true]
    omega
  · simp only [hsum, decide_false, Bool.toNat_false]
    omega

/-- Masking with 0x80 tests the sign bit. -/
theorem and_sign_ne_zero (b : Byte) : ((b &&& 0x80#8) != 0#8) = b.msb := by
  revert b
  decide

/-- The two's-complement value of a byte. -/
theorem toInt_cases (b : Byte) :
    (b.toNat < 128 ∧ b.toInt = b.toNat) ∨ (128 ≤ b.toNat ∧ b.toInt = b.toNat - 256) := by
  rw [BitVec.toInt_eq_toNat_cond]
  split
  · exact .inl ⟨by omega, rfl⟩
  · exact .inr ⟨by omega, rfl⟩

/-- ADC overflows when the operands agree in sign and the result does not (R127). -/
theorem adcOverflow_iff_signs (a v : Byte) (c : Bool) :
    adcOverflow a v c = true ↔
      (128 ≤ a.toNat ↔ 128 ≤ v.toNat) ∧ ¬(128 ≤ a.toNat ↔ 128 ≤ (adcResult a v c).toNat) := by
  have hsign : ∀ b : Byte, 128 ≤ b.toNat ↔ b.msb = true := fun b => by simp [BitVec.msb_eq_decide]
  rw [adcOverflow, and_sign_ne_zero, BitVec.msb_and, BitVec.msb_not, BitVec.msb_xor, BitVec.msb_xor]
  simp [hsign]

/-- ADC's V tells that the signed sum does not fit in a byte (R127, R132). -/
theorem adcOverflow_iff (a v : Byte) (c : Bool) :
    adcOverflow a v c = true ↔
      a.toInt + v.toInt + (c.toNat : Int) < -128 ∨ 127 < a.toInt + v.toInt + (c.toNat : Int) := by
  have hsum := adcCarry_adcResult a v c
  have hresult := (adcResult a v c).isLt
  have hcarry := (adcCarry a v c).toNat_le
  have hc := c.toNat_le
  have ha := toInt_cases a
  have hv := toInt_cases v
  rw [adcOverflow_iff_signs]
  omega

/-- SBC is ADC of the operand's one's complement (R128). -/
theorem sbcResult_eq_adcResult (a v : Byte) (c : Bool) : sbcResult a v c = adcResult a (~~~v) c := rfl

theorem sbcCarry_eq_adcCarry (a v : Byte) (c : Bool) : sbcCarry a v c = adcCarry a (~~~v) c := rfl

/-- SBC's overflow test is ADC's, since `~(a ^ ~v) = a ^ v` (R128). -/
theorem sbcOverflow_eq_adcOverflow (a v : Byte) (c : Bool) : sbcOverflow a v c = adcOverflow a (~~~v) c := by
  have hsign : ~~~(a ^^^ ~~~v) = a ^^^ v := by
    rw [BitVec.not_xor_right, BitVec.not_not]
  rw [sbcOverflow, adcOverflow, hsign, sbcResult_eq_adcResult]

/-- The two's-complement value of a one's complement. -/
theorem toInt_not_byte (v : Byte) : (~~~v).toInt = -v.toInt - 1 := by
  have hlt := v.isLt
  have hnot : (~~~v).toNat = 255 - v.toNat := BitVec.toNat_not
  have hw := toInt_cases (~~~v)
  have hv := toInt_cases v
  omega

/-- SBC's carry out is "no borrow", its result the difference modulo 256 (R128, R132). -/
theorem sbcCarry_sbcResult (a v : Byte) (c : Bool) :
    ((sbcResult a v c).toNat : Int) =
      a.toNat - v.toNat - (1 - (c.toNat : Int)) + 256 * (1 - ((sbcCarry a v c).toNat : Int)) := by
  have hv := v.isLt
  have hsum := adcCarry_adcResult a (~~~v) c
  rw [BitVec.toNat_not] at hsum
  rw [sbcResult_eq_adcResult, sbcCarry_eq_adcCarry]
  omega

/-- SBC's V tells that the signed difference does not fit in a byte (R128, R132). -/
theorem sbcOverflow_iff (a v : Byte) (c : Bool) :
    sbcOverflow a v c = true ↔
      a.toInt - v.toInt - (1 - (c.toNat : Int)) < -128 ∨ 127 < a.toInt - v.toInt - (1 - (c.toNat : Int)) := by
  have hdiff : a.toInt + (~~~v).toInt + (c.toNat : Int) = a.toInt - v.toInt - (1 - (c.toNat : Int)) := by
    rw [toInt_not_byte]
    ring
  rw [sbcOverflow_eq_adcOverflow, adcOverflow_iff, hdiff]

@[simp] theorem flagOf_adcStatus_c (p a v : Byte) : flagOf (adcStatus p a v) .c = adcCarry a v (flagOf p .c) := by
  simp [adcStatus]

@[simp] theorem flagOf_adcStatus_v (p a v : Byte) : flagOf (adcStatus p a v) .v = adcOverflow a v (flagOf p .c) := by
  simp [adcStatus]

@[simp] theorem flagOf_sbcStatus_c (p a v : Byte) : flagOf (sbcStatus p a v) .c = sbcCarry a v (flagOf p .c) := by
  simp [sbcStatus]

@[simp] theorem flagOf_sbcStatus_v (p a v : Byte) : flagOf (sbcStatus p a v) .v = sbcOverflow a v (flagOf p .c) := by
  simp [sbcStatus]

/-- Settles O39: the fields of the state after ADC by `adcCarry_adcResult` and `adcOverflow_iff`. -/
theorem adcIsExactAddition : Obligations.AdcIsExactAddition := by
  intro i s h
  refine ⟨afterInstr i s, exec_eq_afterInstr i s, ?_, ?_⟩
  · simp only [afterInstr, aAfter, statusAfter, h, flagOf_adcStatus_c]
    exact adcCarry_adcResult s.a (operandValue i s) (flagOf s.status .c)
  · simp only [afterInstr, statusAfter, h, flagOf_adcStatus_v]
    exact adcOverflow_iff s.a (operandValue i s) (flagOf s.status .c)

/-- Settles O40: the fields of the state after SBC by `sbcCarry_sbcResult` and `sbcOverflow_iff`. -/
theorem sbcIsExactSubtraction : Obligations.SbcIsExactSubtraction := by
  intro i s h
  refine ⟨afterInstr i s, exec_eq_afterInstr i s, ?_, ?_⟩
  · simp only [afterInstr, aAfter, statusAfter, h, flagOf_sbcStatus_c]
    exact sbcCarry_sbcResult s.a (operandValue i s) (flagOf s.status .c)
  · simp only [afterInstr, statusAfter, h, flagOf_sbcStatus_v]
    exact sbcOverflow_iff s.a (operandValue i s) (flagOf s.status .c)

/-! ### The order a compare tells -/

@[simp] theorem flagOf_compareStatus (p r v : Byte) (g : Flag) :
    flagOf (compareStatus p r v) g =
      if g = .n then (r - v).getLsbD 7 else if g = .z then r - v == 0#8
      else if g = .c then decide (v ≤ r) else flagOf p g := by
  simp [compareStatus]

/-- A difference of bytes is 0 only for equal bytes. -/
theorem sub_beq_zero (r v : Byte) : (r - v == 0#8) = decide (r = v) := by
  rw [beq_eq_decide]
  exact decide_eq_decide.mpr sub_eq_zero

/-- Settles O41: the status after a compare, bit by bit in each of the three cases. -/
theorem compareOrdersUnsigned : Obligations.CompareOrdersUnsigned := by
  intro i s r h
  refine ⟨_, exec_of_compare h, fun f hc hz hn => ?_, fun heq => ?_, fun hgt => ?_, fun hlt => ?_⟩
  · simp [hc, hz, hn]
  · simp [← heq]
  · have hne : r ≠ operandValue i s := (BitVec.ne_of_lt hgt).symm
    have hle : operandValue i s ≤ r := BitVec.le_of_lt hgt
    simp [sub_beq_zero, hne, hle]
  · have hne : r ≠ operandValue i s := BitVec.ne_of_lt hlt
    simp [sub_beq_zero, hne, hlt]

end Sys2Proof
end

section
/-! PROOFS. The increments, decrements, shifts and rotations (`44_incdec_shift.md`): the byte comes from its operand and
goes back to where it came from; a rotation through the carry turns nine bits. -/

namespace Sys2Proof

open Sys2Proof.Machine Sys2Proof.Claims

/-! ### Read, modify, write -/

/-- The mnemonics that write back the operand they read (R145). -/
def modifyMnemonics : List Mnemonic := [.asl, .lsr, .rol, .ror, .inc, .dec]

section
variable {i : Instr} (hm : i.mnemonic ∈ modifyMnemonics)
include hm

theorem Instr.format_ne_ind_of_modify : i.format ≠ .ind :=
  Instr.format_ne_ind fun h => absurd (h ▸ hm) (by decide)

/-- Such an instruction has no immediate mode, so off the accumulator its value form is memory (R81, R92). -/
theorem Instr.valueForm_of_modify : i.valueForm = .mem i.addrForm := by
  refine valueForm_eq_mem (Instr.format_ne_imm ?_)
  have hsub : modifyMnemonics ⊆ [.asl, .lsr, .rol, .ror, .inc, .dec, .bit] := by decide
  exact hsub hm

/-- The byte such an instruction reads from memory is its operand's value (R92). -/
theorem formValue_mem_of_modify (s : State) (hacc : i.format ≠ .acc) :
    s.formValue (.mem i.addrForm) = operandValue i s := by
  rw [← Instr.valueForm_of_modify hm, formValue_valueForm s (Instr.format_ne_ind_of_modify hm) hacc]

/-- The reads of its memory form are its operand's reads (R94). -/
theorem valueReads_mem_of_modify (s : State) (hacc : i.format ≠ .acc) :
    s.valueReads (.mem i.addrForm) = operandReads i s := by
  rw [← Instr.valueForm_of_modify hm, valueReads_valueForm s (Instr.format_ne_ind_of_modify hm) hacc]

end

/-- An instruction whose meaning is `stepMemory` stores the stepped operand at its own address, with Z and N (R135, R136,
R145). -/
theorem exec_stepMemory {i : Instr} (g : Byte → Byte) (s : State) (hm : i.mnemonic ∈ [.inc, .dec])
    (hmeaning : i.meaning = stepMemory g i.addrForm i.opcode) :
    exec i s = .next
      { (after i s (operandReads i s ++ [.write (modeAddr i s) (g (operandValue i s))])).store (modeAddr i s)
          (g (operandValue i s)) with
        status := withZN s.status (g (operandValue i s)) } := by
  have hsub : [.inc, .dec] ⊆ modifyMnemonics := by decide
  have hmodify : i.mnemonic ∈ modifyMnemonics := hsub hm
  have hnot : ∀ m ∈ [Mnemonic.inc, .dec], m ∉ [Mnemonic.asl, .lsr, .rol, .ror] := by decide
  have hacc : i.format ≠ .acc := Instr.format_ne_acc (hnot _ hm)
  rw [exec_eq_meaning, hmeaning, stepMemory_eq, formValue_mem_of_modify hmodify s hacc,
    valueReads_mem_of_modify hmodify s hacc, formAddr_addrForm s (Instr.format_ne_ind_of_modify hmodify),
    List.append_assoc]
  rfl

/-- Settles O26: both by `exec_stepMemory`, their encodings by the opcode table. -/
theorem incDecStepMemory : Obligations.IncDecStepMemory := by
  refine ⟨fun i s h => exec_stepMemory incByte s (by simp [h]) (by simp only [Instr.meaning, h]),
    fun i s h => exec_stepMemory decByte s (by simp [h]) (by simp only [Instr.meaning, h]), ?_, ?_⟩
  all_goals exact hasEncodings_of_rows (by decide) (by decide)

/-! ### The index registers -/

/-- Settles O27: each is its meaning `stepReg` on its register, its encoding by the opcode table. -/
theorem incDecStepRegisters : Obligations.IncDecStepRegisters := by
  refine ⟨fun i s h => ?inx, fun i s h => ?iny, fun i s h => ?dex, fun i s h => ?dey, ?_, ?_, ?_, ?_⟩
  case inx | iny | dex | dey =>
    simp only [exec_eq_meaning, Instr.meaning, h, stepReg_eq, after_nil]
    rfl
  all_goals exact hasEncodings_of_rows (by decide) (by decide)

/-! ### Shifts and rotations -/

/-- A mnemonic whose meaning is `shiftTarget g` shifts by `g`, on the accumulator and on memory (R141 to R145). -/
theorem shifts_of_shiftTarget {m : Mnemonic} {g : Byte → Bool → Shifted} (hm : m ∈ modifyMnemonics)
    (hmeaning : ∀ i : Instr, i.mnemonic = m → i.meaning = shiftTarget g i.targetForm i.opcode) : shifts m g := by
  intro i s h
  have hmodify : i.mnemonic ∈ modifyMnemonics := h ▸ hm
  refine ⟨fun hacc => ?_, fun hacc => ?_⟩
  · have htarget : i.targetForm = .acc := by simp only [Instr.targetForm, hacc]
    have hvalue : operandValue i s = s.a := by simp only [operandValue, hacc]
    rw [exec_eq_meaning, hmeaning i h, htarget, shiftTarget_acc_eq, after_nil, hvalue]
    rfl
  · rw [exec_eq_meaning, hmeaning i h, targetForm_eq_mem hacc, shiftTarget_mem_eq, formValue_mem_of_modify hmodify s hacc,
      valueReads_mem_of_modify hmodify s hacc, formAddr_addrForm s (Instr.format_ne_ind_of_modify hmodify),
      List.append_assoc]
    rfl

/-- Settles O28: each by `shifts_of_shiftTarget`, its encodings by the opcode table. -/
theorem shiftsMoveABitThroughCarry : Obligations.ShiftsMoveABitThroughCarry := by
  have hror : shiftRor = fun v c => ⟨(if c then 0x80#8 else 0#8) ||| (v >>> 1), v.getLsbD 0⟩ :=
    funext₂ shiftRor_eq
  refine ⟨shifts_of_shiftTarget (g := shiftAsl) (by decide) fun i h => by simp only [Instr.meaning, h],
    shifts_of_shiftTarget (g := shiftLsr) (by decide) fun i h => by simp only [Instr.meaning, h],
    shifts_of_shiftTarget (g := shiftRol) (by decide) fun i h => by simp only [Instr.meaning, h],
    hror ▸ shifts_of_shiftTarget (g := shiftRor) (by decide) fun i h => by simp only [Instr.meaning, h], ?_, ?_, ?_, ?_⟩
  all_goals exact hasEncodings_of_rows (by decide) (by decide)

/-! ### A rotation of nine bits -/

/-- The nine bits that a rotation turns: the operand, and the carry above it as bit 8 (R143, R144). -/
def carryAbove (c : Bool) (a : Byte) (j : Fin 9) : Bool := (BitVec.cons c a).getLsbD j

/-- The nine bits tell the carry and the accumulator. -/
theorem carryAbove_inj {c d : Bool} {a b : Byte} (h : carryAbove c a = carryAbove d b) : a = b ∧ c = d := by
  have hcons : BitVec.cons c a = BitVec.cons d b := BitVec.eq_of_getLsbD_eq fun j hj => congrFun h ⟨j, hj⟩
  refine ⟨?_, ?_⟩
  · simpa using congrArg (BitVec.setWidth 8) hcons
  · simpa using congrArg BitVec.msb hcons

/-- ROL moves each of the nine bits up by one, the carry to bit 0 (R143). -/
theorem carryAbove_shiftRol (v : Byte) (c : Bool) (j : Fin 9) :
    carryAbove (shiftRol v c).carry (shiftRol v c).result j = carryAbove c v (j - 1) := by
  fin_cases j <;> cases c <;> simp [carryAbove, shiftRol, bitByte, BitVec.getElem_cons]

/-- ROR moves each of the nine bits down by one, bit 0 to the carry (R144). -/
theorem carryAbove_shiftRor (v : Byte) (c : Bool) (j : Fin 9) :
    carryAbove (shiftRor v c).carry (shiftRor v c).result j = carryAbove c v (j + 1) := by
  fin_cases j <;> cases c <;> simp [carryAbove, shiftRor, bitByte, BitVec.getElem_cons]

/-- The nine bits of a state: its carry above its accumulator. -/
def carryAcc (s : State) : Fin 9 → Bool := carryAbove (flagOf s.status .c) s.a

/-- ROL A moves the nine bits of the state up by one (R143). -/
theorem carryAcc_of_rolAcc {s t : State} (h : exec .rolAcc s = .next t) (j : Fin 9) :
    carryAcc t j = carryAcc s (j - 1) := by
  rw [eq_afterInstr_of_exec h, carryAcc, carryAcc, ← carryAbove_shiftRol]
  simp [afterInstr, aAfter, statusAfter, shiftStatus, shiftedOperand, operandValue, Instr.mnemonic, Instr.format]

/-- ROR A moves the nine bits of the state down by one (R144). -/
theorem carryAcc_of_rorAcc {s t : State} (h : exec .rorAcc s = .next t) (j : Fin 9) :
    carryAcc t j = carryAcc s (j + 1) := by
  rw [eq_afterInstr_of_exec h, carryAcc, carryAcc, ← carryAbove_shiftRor]
  simp [afterInstr, aAfter, statusAfter, shiftStatus, shiftedOperand, operandValue, Instr.mnemonic, Instr.format]

/-- If every step of a run moves the nine bits by `d`, then `k` steps move them by `k • d`. -/
theorem carryAcc_of_run {n : Nat} {run : Fin (n + 1) → State} {d : Fin 9}
    (h : ∀ (k : Fin n) (j : Fin 9), carryAcc (run k.succ) j = carryAcc (run k.castSucc) (j + d)) (k : Fin (n + 1)) :
    ∀ j : Fin 9, carryAcc (run k) j = carryAcc (run 0) (j + k.val • d) := by
  induction k using Fin.induction with
  | zero => intro j; simp
  | succ k ih =>
    intro j
    rw [h, ih, Fin.val_succ, Fin.val_castSucc, succ_nsmul', add_assoc]

/-- Nine steps that each move the nine bits by the same distance restore them. -/
theorem restores_of_run {run : Fin 10 → State} {d : Fin 9}
    (h : ∀ (k : Fin 9) (j : Fin 9), carryAcc (run k.succ) j = carryAcc (run k.castSucc) (j + d)) :
    (run 9).a = (run 0).a ∧ flagOf (run 9).status .c = flagOf (run 0).status .c := by
  have hnine : ∀ e : Fin 9, 9 • e = 0 := by decide
  refine carryAbove_inj (funext fun j => ?_)
  calc carryAcc (run 9) j = carryAcc (run 0) (j + 9 • d) := carryAcc_of_run h 9 j
    _ = carryAcc (run 0) j := by rw [hnine, add_zero]

/-- Settles O42: ROL A moves the nine bits by -1, ROR A by 1, and nine such steps are a full turn. -/
theorem nineRotationsRestore : Obligations.NineRotationsRestore := by
  rintro run (h | h)
  · exact restores_of_run (d := -1) fun k j => by rw [← sub_eq_add_neg, carryAcc_of_rolAcc (h k)]
  · exact restores_of_run (d := 1) fun k j => carryAcc_of_rorAcc (h k) j

end Sys2Proof
end

section
/-! PROOFS. Jumps, calls, returns and branches (`45_control.md`): a call and a return by the two stack slots of the word
they push and pull, every branch by the one meaning it shares. -/

namespace Sys2Proof.Machine

/-- Two pushes of a word: its high byte is stored in the slot at `sp`, its low byte in the slot below (R47, R148;
decision D2). -/
theorem State.pushWord_eq (s : State) (w : Addr) :
    s.pushWord w =
      { (s.store (stackSlot s.sp) (hiByte w)).store (stackSlot (s.sp - 1#8)) (loByte w) with
        sp := s.sp - 2#8
        accesses := s.accesses ++
          [.write (stackSlot s.sp) (hiByte w), .write (stackSlot (s.sp - 1#8)) (loByte w)] } := by
  have htwo : s.sp - 1#8 - 1#8 = s.sp - 2#8 := BitVec.sub_sub _ _ _
  simp only [State.pushWord, State.push_eq, State.store_eq, htwo, List.append_assoc]
  rfl

end Sys2Proof.Machine

namespace Sys2Proof

open Sys2Proof.Machine Sys2Proof.Claims

/-! ### Jumps, calls and returns -/

/-- Settles O29: both forms by `jumpTo_eq`, the encodings by the opcode table. -/
theorem jmpGoesToTheTarget : Obligations.JmpGoesToTheTarget :=
  ⟨fun hhll => jumpTo_eq (.abs hhll) 0x4C#8, fun ptr => jumpTo_eq (.ind ptr) 0x6C#8,
    hasEncodings_of_rows (by decide) (by decide)⟩

/-- Settles O30: the call is its meaning's `pushWord` of `pc - 1`, its encoding by the opcode table. -/
theorem jsrPushesTheReturnAddress : Obligations.JsrPushesTheReturnAddress := by
  refine ⟨fun i s h => ?_, hasEncodings_of_rows (by decide) (by decide)⟩
  simp only [exec_eq_meaning, Instr.meaning, h, State.pushWord_eq, State.store_eq]
  rfl

/-- Settles O31: the return is its meaning's `pullWord`, its encoding by the opcode table. -/
theorem rtsPullsTheReturnAddress : Obligations.RtsPullsTheReturnAddress := by
  refine ⟨fun i s h => ?_, hasEncodings_of_rows (by decide) (by decide)⟩
  have htwo : s.sp + 1#8 + 1#8 = s.sp + 2#8 := BitVec.add_assoc _ _ _
  simp only [exec_eq_meaning, Instr.meaning, h, State.pullWord_eq, htwo]
  rfl

/-- JSR leaves the high byte of `pc - 1` in the slot at the old `sp`, its low byte in the slot below (R148, D2). -/
theorem peek_slots_of_jsr {hhll : Addr} {s t : State} (h : exec (.jsr hhll) s = .next t) :
    t.peek (stackSlot s.sp) = hiByte (s.pc - 1#16) ∧ t.peek (stackSlot (s.sp - 1#8)) = loByte (s.pc - 1#16) := by
  have hpeek : ∀ b, t.peek b = (s.pushWord (s.pc - 1#16)).peek b := by
    rw [exec_jsr] at h
    cases h
    exact fun _ => rfl
  have hne : stackSlot s.sp ≠ stackSlot (s.sp - 1#8) := by
    rw [Ne, stackSlot_inj]
    bv_omega
  exact ⟨by rw [hpeek, State.peek_pushWord, if_neg hne, if_pos rfl], by rw [hpeek, State.peek_pushWord, if_pos rfl]⟩

/-- Settles O46: RTS pulls the two bytes of `pc - 1` from the slots JSR put them in, and adds the 1 back (R159). -/
theorem jsrThenRtsReturns : Obligations.JsrThenRtsReturns := by
  intro hhll s t u hjsr husp hhigh hlow
  obtain ⟨hhi, hlo⟩ := peek_slots_of_jsr hjsr
  have htsp : t.sp = s.sp - 2#8 := congrArg State.sp (eq_afterInstr_of_exec hjsr)
  have hlowSlot : u.sp + 1#8 = s.sp - 1#8 := by
    rw [husp, htsp]
    bv_omega
  have hhighSlot : u.sp + 2#8 = s.sp := by rw [husp, htsp, BitVec.sub_add_cancel]
  refine ⟨_, exec_eq_afterInstr .rts u, ?_, hhighSlot⟩
  calc pcAfter .rts u
      = u.peek (stackSlot (u.sp + 2#8)) ++ u.peek (stackSlot (u.sp + 1#8)) + 1#16 := rfl
    _ = hiByte (s.pc - 1#16) ++ loByte (s.pc - 1#16) + 1#16 := by rw [hhighSlot, hlowSlot, hhigh, hlow, hhi, hlo]
    _ = s.pc := by rw [hiByte_append_loByte, BitVec.sub_add_cancel]

/-! ### Branches -/

/-- A mnemonic whose meaning is `branchIf` on a flag and a value is the branch that tests that flag for that value
(R150). -/
theorem branches_of_branchIf {m : Mnemonic} {f : Flag} {v : Bool}
    (hmeaning : ∀ i : Instr, i.mnemonic = m → i.meaning = branchIf f v (byteOperand i) i.opcode) : branches m f v := by
  intro i s h
  rw [exec_eq_meaning, hmeaning i h, branchIf_eq, after_nil]
  refine ⟨fun htaken => ?_, fun hnot => ?_⟩
  · rw [if_pos htaken, if_pos htaken]
    rfl
  · have huntaken : flagOf s.status f ≠ v := by rw [hnot]; exact Bool.not_ne_self v
    rw [if_neg huntaken, if_neg huntaken]
    rfl

/-- Settles O32: each branch by `branches_of_branchIf`, its encoding by the opcode table. -/
theorem branchesTestOneFlag : Obligations.BranchesTestOneFlag := by
  refine ⟨?_, ?_, ?_, ?_, ?_, ?_, ?_, ?_, ?_, ?_, ?_, ?_, ?_, ?_, ?_, ?_⟩
  iterate 8 exact branches_of_branchIf fun i h => by simp only [Instr.meaning, h]
  all_goals exact hasEncodings_of_rows (by decide) (by decide)

end Sys2Proof
end

section
/-! PROOFS. The flag instructions, BRK, RTI and NOP (`46_flag_system.md`): a flag instruction is one write of one status
bit, BRK and RTI are the shared trap entry and trap return, NOP only returns its count. -/

namespace Sys2Proof

open Sys2Proof.Machine Sys2Proof.Claims

/-! ### The flag instructions and NOP -/

/-- A mnemonic whose meaning is `writeFlag` on a flag and a value writes that bit and no other (R160 to R166). -/
theorem writesFlag_of_writeFlag {m : Mnemonic} {f : Flag} {v : Bool}
    (hmeaning : ∀ i : Instr, i.mnemonic = m → i.meaning = writeFlag f v i.opcode) : writesFlag m f v := by
  intro i s h
  refine ⟨withFlag s.status f v, ?_, ?_, fun g hg => ?_⟩
  · rw [exec_eq_meaning, hmeaning i h, writeFlag_eq, after_nil]
    rfl
  · rw [flagOf_withFlag, if_pos rfl]
  · rw [flagOf_withFlag, if_neg hg]

/-- Settles O33: each by `writesFlag_of_writeFlag`, its encoding by the opcode table. -/
theorem flagInstructionsWriteOneBit : Obligations.FlagInstructionsWriteOneBit := by
  refine ⟨?_, ?_, ?_, ?_, ?_, ?_, ?_, ?_, ?_, ?_, ?_, ?_, ?_, ?_⟩
  iterate 7 exact writesFlag_of_writeFlag fun i h => by simp only [Instr.meaning, h]
  all_goals exact hasEncodings_of_rows (by decide) (by decide)

/-- Settles O36: NOP's meaning only retires, and its one row of the opcode table gives the count. -/
theorem nopChangesNothing : Obligations.NopChangesNothing := by
  have henc : HasEncodings .nop [(0xEA#8, .imp, 1, 2#8)] := hasEncodings_of_rows (by decide) (by decide)
  refine ⟨fun i s h => ?_, henc⟩
  have hrow := List.mem_singleton.mp (henc.1 i h)
  have hcount : baseCycles i.opcode = 2#8 := congrArg (fun r => r.2.2.2) hrow
  simp only [exec_eq_meaning, Instr.meaning, h, State.retire, State.returning, hcount]

/-! ### Trap entry and trap return -/

/-- BRK leaves the high and the low byte of `pc + 1` and the status with B and bit 5 set in the three slots from the old
`sp` down (R167; decision D2). -/
theorem peek_slots_of_brk {i : Instr} {s t : State} (hi : i.mnemonic = .brk) (h : exec i s = .next t) :
    t.peek (stackSlot s.sp) = hiByte (s.pc + 1#16) ∧ t.peek (stackSlot (s.sp - 1#8)) = loByte (s.pc + 1#16) ∧
      t.peek (stackSlot (s.sp - 2#8)) = pushedStatus s.status := by
  have htwo : s.sp - 1#8 - 1#8 = s.sp - 2#8 := BitVec.sub_sub _ _ _
  have hpeek : ∀ b, t.peek b = (trapFrame s).peek b := by
    simp only [exec_eq_meaning, Instr.meaning, hi, enterTrap_eq] at h
    cases h
    exact fun _ => rfl
  have h01 : s.sp ≠ s.sp - 1#8 := by bv_omega
  have h02 : s.sp ≠ s.sp - 2#8 := by bv_omega
  have h12 : s.sp - 1#8 ≠ s.sp - 2#8 := by bv_omega
  simp only [hpeek, peek_trapFrame, htwo, stackSlot_inj, h01, h02, h12, if_true, if_false, and_self]

/-- Settles O34: the slots by `peek_slots_of_brk`, the other bytes by `bytesOutsideTheStoreStand`, the registers
and outputs by the state after the instruction. -/
theorem brkEntersTheTrap : Obligations.BrkEntersTheTrap := by
  refine ⟨fun i s h => ⟨afterInstr i s, exec_eq_afterInstr i s, ?_⟩, hasEncodings_of_rows (by decide) (by decide)⟩
  have hexec := exec_eq_afterInstr i s
  obtain ⟨hhigh, hlow, hpushed⟩ := peek_slots_of_brk h hexec
  have hframe : ∀ b : Addr, b ≠ stackSlot s.sp → b ≠ stackSlot (s.sp - 1#8) → b ≠ stackSlot (s.sp - 2#8) →
      (afterInstr i s).peek b = s.peek b := fun b h0 h1 h2 =>
    bytesOutsideTheStoreStand i s _ hexec b (by simp [storedAddrs, h, h0, h1, h2])
  have hstatusAfter : (afterInstr i s).status = withFlag (withFlag s.status .b false) .i true := by
    simp only [afterInstr, statusAfter, h]
  -- The three slots are RAM, so the pushes emit no event (R45, R113).
  have hevents : (dataAccesses i s).flatMap (eventsOf s.bus) = [] := by simp [dataAccesses, h, eventsOf]
  refine ⟨hhigh, hlow, hpushed, hframe, ?sp, ?b, ?i, fun f hb hi => ?others, ?pc, ?a, ?x, ?y, rfl, rfl, ?events, ?cycles,
    rfl⟩
  case b | i => simp [hstatusAfter]
  case others => simp [hstatusAfter, hb, hi]
  case events => simp only [afterInstr, hevents, List.append_nil]
  case cycles => simp [afterInstr, countAfter, h, branchTaken, branchTest]
  case sp | pc | a | x | y => simp only [afterInstr, spAfter, pcAfter, aAfter, xAfter, yAfter, h]

/-- Settles O35: the trap return by `leaveTrap_record`, the encoding by the opcode table. -/
theorem rtiLeavesTheTrap : Obligations.RtiLeavesTheTrap := by
  refine ⟨fun i s h => ?_, hasEncodings_of_rows (by decide) (by decide)⟩
  have htwo : s.sp + 1#8 + 1#8 = s.sp + 2#8 := BitVec.add_assoc _ _ _
  have hthree : s.sp + 2#8 + 1#8 = s.sp + 3#8 := BitVec.add_assoc _ _ _
  simp only [exec_eq_meaning, Instr.meaning, h, leaveTrap_record, htwo, hthree]
  rfl

end Sys2Proof
end

section
/-! PROOFS. Exceptions (`60_exceptions.md`): the trap return undoes the trap entry. -/

namespace Sys2Proof

open Sys2Proof.Machine Sys2Proof.Claims

/-- Settles O47: BRK leaves `sp` three below, so RTI pulls the three slots BRK filled (`peek_slots_of_brk`): the pushed
status, whose B it clears, and the two bytes of `pc + 1`. -/
theorem brkThenRtiReturns : Obligations.BrkThenRtiReturns := by
  intro s t u hbrk husp hua hux huy hhigh hlow hpushed
  obtain ⟨hhi, hlo, hp⟩ := peek_slots_of_brk (i := .brk) rfl hbrk
  obtain rfl : t = afterInstr .brk s := eq_afterInstr_of_exec hbrk
  have hsp : u.sp = s.sp - 3#8 := husp
  have hstatusSlot : u.sp + 1#8 = s.sp - 2#8 := by rw [hsp]; bv_omega
  have hlowSlot : u.sp + 2#8 = s.sp - 1#8 := by rw [hsp]; bv_omega
  have hhighSlot : u.sp + 3#8 = s.sp := by rw [hsp, BitVec.sub_add_cancel]
  have hpc : pcAfter .rti u = s.pc + 1#16 :=
    calc pcAfter .rti u
        = u.peek (stackSlot (u.sp + 3#8)) ++ u.peek (stackSlot (u.sp + 2#8)) := rfl
      _ = hiByte (s.pc + 1#16) ++ loByte (s.pc + 1#16) := by rw [hhighSlot, hlowSlot, hhigh, hlow, hhi, hlo]
      _ = s.pc + 1#16 := hiByte_append_loByte _
  have hstatus : statusAfter .rti u = pulledStatus (pushedStatus s.status) :=
    calc statusAfter .rti u
        = pulledStatus (u.peek (stackSlot (u.sp + 1#8))) := rfl
      _ = pulledStatus (pushedStatus s.status) := by rw [hstatusSlot, hpushed, hp]
  refine ⟨afterInstr .rti u, exec_eq_afterInstr .rti u, hpc, hhighSlot, hua, hux, huy, ?b, ?u, fun f hb hu => ?others⟩
  case b | u => simp [afterInstr, hstatus]
  case others => simp [afterInstr, hstatus, hb, hu]

end Sys2Proof
end

section
/-! PROOFS. The end of a run (`70_reset_and_hazards.md`): every tick has a next state, so a run is the iterates of one
function, and `runToEnd` answers the first of them with `pc = END`. -/

namespace Sys2Proof

open Sys2Proof.Machine

/-- The state after a tick (R77, R99). -/
def afterTick (s : State) : State := afterInstr s.beginTick.fetchInstr.1 s.beginTick.fetchInstr.2

theorem step_eq_afterTick (s : State) : step s = .next (afterTick s) := step_eq_afterInstr s

/-- Each state of the iterated run is a tick after the one before. -/
theorem step_iterate_afterTick (j : Nat) (s : State) : step (afterTick^[j] s) = .next (afterTick^[j + 1] s) := by
  rw [step_eq_afterTick, Function.iterate_succ_apply']

/-- A run from `s` ends after `k` ticks: the boundary there is the first with `pc = END` (R200, decision D16). -/
structure EndsAfter (endAddr : Addr) (k : Nat) (s : State) : Prop where
  not_before : ∀ j, j < k → ¬ atEnd endAddr (afterTick^[j] s)
  reached : atEnd endAddr (afterTick^[k] s)

theorem endsAfter_zero {endAddr : Addr} {s : State} (h : atEnd endAddr s) : EndsAfter endAddr 0 s :=
  ⟨fun _ hj => absurd hj (Nat.not_lt_zero _), h⟩

/-- A run that does not begin at END ends one tick after the run from its next state does. -/
theorem endsAfter_succ_iff {endAddr : Addr} {k : Nat} {s : State} (h : ¬ atEnd endAddr s) :
    EndsAfter endAddr (k + 1) s ↔ EndsAfter endAddr k (afterTick s) := by
  refine ⟨fun hk => ⟨fun j hj => hk.not_before (j + 1) (Nat.succ_lt_succ hj), hk.reached⟩, fun hk => ⟨?_, hk.reached⟩⟩
  rintro (_ | j) hj
  · exact h
  · exact hk.not_before j (Nat.lt_of_succ_lt_succ hj)

theorem runToEnd_of_atEnd {endAddr : Addr} {s : State} (n : Nat) (h : atEnd endAddr s) :
    runToEnd endAddr n s = some s := by
  cases n <;> exact if_pos h

theorem runToEnd_zero_of_not_atEnd {endAddr : Addr} {s : State} (h : ¬ atEnd endAddr s) :
    runToEnd endAddr 0 s = none :=
  if_neg h

theorem runToEnd_succ_of_not_atEnd {endAddr : Addr} {s : State} (n : Nat) (h : ¬ atEnd endAddr s) :
    runToEnd endAddr (n + 1) s = runToEnd endAddr n (afterTick s) := by
  simp only [runToEnd, if_neg h, step_eq_afterTick]

/-- A run that ends within the bound is answered, by the state it ends in. -/
theorem runToEnd_of_endsAfter {endAddr : Addr} {k n : Nat} {s : State} (hk : EndsAfter endAddr k s) (hkn : k ≤ n) :
    runToEnd endAddr n s = some (afterTick^[k] s) := by
  induction k generalizing n s with
  | zero => exact runToEnd_of_atEnd n hk.reached
  | succ k ih =>
    have hnot : ¬ atEnd endAddr s := hk.not_before 0 (Nat.succ_pos k)
    cases n with
    | zero => exact absurd hkn (Nat.not_succ_le_zero k)
    | succ n =>
      rw [runToEnd_succ_of_not_atEnd n hnot]
      exact ih ((endsAfter_succ_iff hnot).mp hk) (Nat.le_of_succ_le_succ hkn)

/-- An answer is the end of a run within the bound. -/
theorem exists_endsAfter_of_runToEnd {endAddr : Addr} {n : Nat} {s t : State} (h : runToEnd endAddr n s = some t) :
    ∃ k, k ≤ n ∧ EndsAfter endAddr k s ∧ afterTick^[k] s = t := by
  induction n generalizing s with
  | zero =>
    by_cases hs : atEnd endAddr s
    · rw [runToEnd_of_atEnd 0 hs] at h
      exact ⟨0, Nat.le_refl 0, endsAfter_zero hs, Option.some.inj h⟩
    · rw [runToEnd_zero_of_not_atEnd hs] at h
      cases h
  | succ n ih =>
    by_cases hs : atEnd endAddr s
    · rw [runToEnd_of_atEnd (n + 1) hs] at h
      exact ⟨0, Nat.zero_le _, endsAfter_zero hs, Option.some.inj h⟩
    · rw [runToEnd_succ_of_not_atEnd n hs] at h
      obtain ⟨k, hkn, hk, ht⟩ := ih h
      exact ⟨k + 1, Nat.succ_le_succ hkn, (endsAfter_succ_iff hs).mpr hk, ht⟩

/-- Settles O57: the run is the iterates of `afterTick`, and where it ends does not depend on the bound. -/
theorem runEndsAtTheFirstBoundary : Obligations.RunEndsAtTheFirstBoundary := by
  intro endAddr n s t h
  obtain ⟨k, hkn, hk, rfl⟩ := exists_endsAfter_of_runToEnd h
  exact ⟨hk.reached,
    ⟨k, fun j => afterTick^[j] s, hkn, rfl, rfl, fun j hj => ⟨hk.not_before j hj, step_iterate_afterTick j s⟩⟩,
    fun m => runToEnd_of_endsAfter hk (Nat.le_add_right_of_le hkn)⟩

end Sys2Proof
end
